-- ==== Sys2Proof/Word.lean ====
section
/-! DEFINITION. The bit vectors of the block: an 8-bit pattern of frame memory or of the backing store, and the
64-bit command and response words. Every other quantity of the spec is a number or an index (rule R9). -/

namespace Sys2Proof

/-- An 8-bit pattern: one byte of frame memory or of the backing store (rules R39, R63). -/
abbrev Byte := BitVec 8

/-- A command word or a response word (rules R86, R97). -/
abbrev Word64 := BitVec 64

end Sys2Proof
end

