-- ==== Sys2Proof/Config.lean ====
section
/-! DEFINITION. The implementation parameters of rule R7 as named constants, the index types they size, and the free
values: the contents the spec calls unspecified. The OPEN parameters (TLB_SEED, FRAME_SEED, BS_SIZE, BS_DATA and the
draws BS_FAIL) are fields of State, so that a claim about every state is a claim about every value of them. -/

namespace Sys2Proof

/-- Bits of page offset (rule R7). -/
abbrev offsetBits : Nat := 8
/-- Bytes per page and per frame (rule R7). -/
abbrev pageSize : Nat := 256
/-- Bits of virtual page number (rule R7). -/
abbrev pageBits : Nat := 8
/-- Virtual pages, and page-table entries (rule R7). -/
abbrev numPages : Nat := 256
/-- Virtual address width (rule R7). -/
abbrev vaddrBits : Nat := 16
/-- Bytes of virtual address space (rule R7). -/
abbrev vspace : Nat := 65536
/-- Physical frames (rule R7). -/
abbrev numFrames : Nat := 128
/-- Bits of frame number (rule R7). -/
abbrev frameBits : Nat := 7
/-- Bytes of frame memory (rule R7). -/
abbrev pspace : Nat := 32768
/-- Width of a physical address (rule R7). -/
abbrev paddrBits : Nat := 15
/-- TLB entries (rule R7). -/
abbrev tlbSlots : Nat := 16
/-- The bytes a backing store must hold so that no page of it is short (rules R7, R219). -/
abbrev bsMin : Nat := 65536
/-- Width of the address operand of a TRANSLATE word (rule R7, decision D3). -/
abbrev reqAddrBits : Nat := 32

/-- The constraints rule R8 puts on the parameters, and the derivations of rule R7. -/
abbrev ParametersAgree : Prop :=
  vspace = numPages * pageSize ∧ 1 ≤ tlbSlots ∧ tlbSlots ≤ numFrames ∧ numFrames ≤ numPages ∧
  pageSize = 2 ^ offsetBits ∧ numPages = 2 ^ pageBits ∧ vspace = 2 ^ vaddrBits ∧
  numFrames = 2 ^ frameBits ∧ pspace = numFrames * pageSize ∧ pspace = 2 ^ paddrBits ∧ bsMin = vspace

/-- A virtual page number, 0..255 (rule R61). -/
abbrev PageNo := Fin numPages
/-- A frame number, 0..127 (rule R62). -/
abbrev FrameNo := Fin numFrames
/-- A TLB slot number, 0..15 (rule R34). -/
abbrev SlotNo := Fin tlbSlots
/-- A byte index inside a page or a frame, 0..255 (rule R15). -/
abbrev Offset := Fin pageSize
/-- A virtual address, 0..65535 (rule R61). -/
abbrev VAddr := Fin vspace
/-- A physical address, 0..32767 (rule R62). -/
abbrev PAddr := Fin pspace

/-- FREE VALUE. The frame field of TLB slot `s` after the `n`-th reset, which rule R34 leaves unspecified
(DESIGN CHOICE, log 3). -/
opaque Config.tlbFrameAtReset : Nat → SlotNo → FrameNo

/-- FREE VALUE. The byte frame memory holds at physical address `pa` after the `n`-th reset, until a fill writes it;
rule R39 leaves it unspecified (DESIGN CHOICE, log 4). -/
opaque Config.frameByteAtReset : Nat → Nat → Byte

/-- FREE VALUE. The byte that backing-store read number `k`, having failed, leaves at offset `o` of its target frame;
rules R72 and R153 leave it unspecified (DESIGN CHOICE, log 5). -/
opaque Config.failedFillByte : Nat → Nat → Byte

end Sys2Proof
end

