-- ==== Sys2Proof/Syntax.lean ====
section
/-! DEFINITION. The abstract command set of rule R85: the three commands of the opcode table with their operands. -/

namespace Sys2Proof

/-- One command of the block (rule R85). -/
inductive Instr where
  /-- `TRANSLATE(addr, is_write)`: the address operand is any natural number, since an out-of-range one must be
  representable (rules R85, R89; semantics R165). -/
  | translate (addr : Nat) (isWrite : Bool)
  /-- `TRANSLATE_MALFORMED`: the host could not read an integer from the record (rules R85, R90; semantics R167). -/
  | translateMalformed
  /-- `REPORT` (rules R85, R92; semantics R168). -/
  | report
  deriving DecidableEq, Repr

end Sys2Proof
end

