-- ==== Sys2Proof/WellFormed.lean ====
section
/-! DEFINITION. Which commands the word form can carry. The block accepts every abstract command (rule R85); the word
form carries an address below 2^32 exactly (rule R88) and a larger one only saturated (rule R89). -/

namespace Sys2Proof

/-- The command has a word of its own: its address operand fits the 32-bit ADDR field (rules R86, R88). -/
def Instr.wellFormed : Instr → Bool
  | .translate addr _ => decide (addr < 2 ^ reqAddrBits)
  | .translateMalformed => true
  | .report => true

end Sys2Proof
end

