-- ==== Sys2Proof/Decode.lean ====
section
/-! DEFINITION. The command word: its fields (rule R86), the decoder (rule R94), the opcode table's match and mask
rows (rule R95), and the encoder (rules R86-R92). -/

namespace Sys2Proof

/-- OP, bits [63:60] (rule R86). -/
def opField (w : Word64) : BitVec 4 := w.extractLsb' 60 4
/-- RSVD, bits [59:34] (rule R86). -/
def rsvdField (w : Word64) : BitVec 26 := w.extractLsb' 34 26
/-- M, bit [33] (rule R86). -/
def mField (w : Word64) : Bool := w.getLsbD 33
/-- W, bit [32] (rule R86). -/
def wField (w : Word64) : Bool := w.getLsbD 32
/-- ADDR, bits [31:0] (rule R86). -/
def addrField (w : Word64) : BitVec 32 := w.extractLsb' 0 32
/-- Bits [59:0], which REPORT requires to be zero (rule R86). -/
def reportBits (w : Word64) : BitVec 60 := w.extractLsb' 0 60

/-- What the decoder reads from a word: a command, or `ILLEGAL(w)` (rule R94). -/
inductive Decoded where
  | command (i : Instr)
  | illegal (w : Word64)
  deriving DecidableEq, Repr

/-- The decoder of rule R94, total on every 64-bit word. -/
def decode (w : Word64) : Decoded :=
  if opField w = 0x1 ∧ rsvdField w = 0 then
    if mField w then .command .translateMalformed
    else .command (.translate (addrField w).toNat (wField w))
  else if opField w = 0x2 ∧ reportBits w = 0 then .command .report
  else .illegal w

/-- One row of the opcode table: a word is the row's when `w & mask = match` (rule R95). -/
structure OpcodeRow where
  mnemonic : String
  mask : Word64
  value : Word64
  deriving DecidableEq, Repr

/-- The three rows of rule R95. -/
def opcodeRows : List OpcodeRow :=
  [⟨"TRANSLATE", 0xFFFFFFFE00000000, 0x1000000000000000⟩,
   ⟨"TRANSLATE_MALFORMED", 0xFFFFFFFE00000000, 0x1000000200000000⟩,
   ⟨"REPORT", 0xFFFFFFFFFFFFFFFF, 0x2000000000000000⟩]

/-- The opcode table's name for a command (rule R95). -/
def Instr.mnemonic : Instr → String
  | .translate _ _ => "TRANSLATE"
  | .translateMalformed => "TRANSLATE_MALFORMED"
  | .report => "REPORT"

/-- The word matches the row (rule R95). -/
def OpcodeRow.covers (r : OpcodeRow) (w : Word64) : Bool := w &&& r.mask = r.value

/-- The 32-bit ADDR field for an address operand: exact below 2^32, and 0xFFFFFFFF for every larger value
(rules R88, R89). -/
def encodeAddr (addr : Nat) : BitVec 32 := BitVec.ofNat 32 (min addr 0xFFFFFFFF)

/-- Put a command word together from its fields (rule R86). -/
def commandWord (op : BitVec 4) (m w : Bool) (addr : BitVec 32) : Word64 :=
  op ++ (0 : BitVec 26) ++ BitVec.ofBool m ++ BitVec.ofBool w ++ addr

/-- The word of a command (rules R86-R92). TRANSLATE_MALFORMED has many words, since W and ADDR are ignored; this
is the one in which they are 0 (DESIGN CHOICE, log 17). -/
def encode : Instr → Word64
  | .translate addr isWrite => commandWord 0x1 false isWrite (encodeAddr addr)
  | .translateMalformed => commandWord 0x1 true false 0
  | .report => commandWord 0x2 false false 0

/-- The command that the decoder reads from the word whose low `nbits` bits are those of `w` and whose other bits are
0; `none` where the word is illegal. -/
def decodeTableWord (nbits w : Nat) : Option Instr :=
  match decode (BitVec.ofNat 64 (w % 2 ^ nbits)) with
  | .command i => some i
  | .illegal _ => none

end Sys2Proof
end

