-- ==== Sys2Proof/Machine/State.lean ====
section
/-! DEFINITION. The state of the block (rule R33), the responses (rule R96), the host's inputs and the backing store
(rules R6, R63, R175), the reasons a step can stop, and the state right after reset (rule R215). All of it is plain
data. -/

namespace Sys2Proof.Machine

/-- Why the machine stops with no next state. -/
inductive Fault where
  /-- Raised by TRANSLATE when the backing store never answers the page read it waits for: the block is STUCK, with
  no step and no response (rule R67). Safe: nothing is claimed of a block that waits for ever. -/
  | backingStoreNeverAnswers
  deriving DecidableEq, Repr

/-- Why a step has no meaning in this model. -/
inductive Refusal where
  /-- Raised by an arm of `exec` for a command whose meaning is not written yet. Safe. -/
  | notModelled (mnemonic : String)
  /-- Raised by `step` when a REPORT that came as a word has a counter of 2^64 or more: the spec defines no response
  words for it (rule R98, decision D23). Safe. -/
  | reportCounterNotPackable
  /-- Raised by `step` when the host attaches a backing store although a page of the run has already been read from
  one: the run is outside the spec (rules R64, R226; log 9). Safe. -/
  | backingStoreChangedDuringRun
  deriving DecidableEq, Repr

/-- One TLB slot: its page, `none` when EMPTY, and its frame (rule R34). -/
structure TlbSlot where
  page : Option PageNo
  frame : FrameNo
  deriving DecidableEq, Repr

/-- A recency order of `n` indices, least recently used first. Rule R110's requirement that it be a permutation is the
invariant `OrderWf` (Safety.lean). -/
abbrev Order (n : Nat) := Vector (Fin n) n

/-- Frame memory as (physical address, byte) pairs (rules R39, R62). -/
abbrev Memory := List Host.Cell

/-- The three statistics counters (rule R44). -/
structure Stats where
  translated : Nat
  pageFaults : Nat
  tlbHits : Nat
  deriving DecidableEq, Repr

/-- The kinds of error the FAULT register can record: there is one (rule R45). -/
inductive FaultKind where
  | backingStoreIOError
  deriving DecidableEq, Repr

/-- What the FAULT register records: the error and the page whose fill failed (rule R45). -/
structure FaultRecord where
  kind : FaultKind
  page : PageNo
  deriving DecidableEq, Repr

/-- The two figures of a REPORT (rules R96, R169). -/
inductive Rates where
  | noTranslations
  | rates (faultPct : Rat) (hitRatio : Rat)
  deriving DecidableEq, Repr

/-- The responses of the block (rule R96). -/
inductive Resp where
  /-- The physical address and the signed byte, -128..127. -/
  | translated (pa : PAddr) (value : Int)
  | reported (translated pageFaults tlbHits : Nat) (fault : Option PageNo) (rates : Rates)
  | errAddressOutOfRange (addr : Nat)
  | errMalformedRecord
  | errBackingStoreIO (page : PageNo)
  | errIllegalCommand
  | errFaulted (page : PageNo)
  deriving DecidableEq, Repr

/-- A reply as the host receives it: the response itself to an abstract command, the response words to a command
word (rules R96-R98, R175; log 13). -/
inductive Reply where
  | response (r : Resp)
  | words (ws : List Word64)
  deriving DecidableEq, Repr

/-- The backing store: `BS_SIZE` bytes, of which the non-zero ones at least are listed as (offset, byte) pairs; an
offset that is not listed holds the byte 0 (rule R63; log 8). -/
structure BackingStore where
  size : Nat
  listed : List Host.Cell
  deriving DecidableEq, Repr

/-- What the device does with one read that lies inside the store (rules R66, R67). -/
inductive Draw where
  | answers
  | fails
  | neverAnswers
  deriving DecidableEq, Repr

/-- What the host can do to the block (rules R175, R219). -/
inductive HostInput where
  /-- Present a 64-bit command word. -/
  | word (w : Word64)
  /-- Present an abstract command. -/
  | command (i : Instr)
  /-- Assert reset, between two commands. -/
  | reset
  /-- Attach a backing store. -/
  | attach (store : BackingStore)
  deriving DecidableEq, Repr

/-- The state of the block, its parameters, and its interface. -/
structure State where
  /-- `TLB` (rule R34). -/
  tlb : Vector TlbSlot tlbSlots
  /-- `RL_T.order` (rule R36). -/
  rlT : Order tlbSlots
  /-- `PT` (rule R37). -/
  pt : Vector (Option FrameNo) numPages
  /-- `FT.mem` by physical address (rules R39, R62): strictly rising addresses; an address that is not listed has been
  written by no fill since reset. -/
  mem : Memory
  /-- `FT.resident` (rule R41). -/
  resident : Vector (Option PageNo) numFrames
  /-- `FT.fill`, 0..128 (rule R42). -/
  fill : Fin (numFrames + 1)
  /-- `RL_F.order` (rule R43). -/
  rlF : Order numFrames
  /-- `STAT` (rule R44). -/
  stat : Stats
  /-- `FAULT` (rule R45). -/
  fault : Option FaultRecord
  /-- The parameter `TLB_SEED` (rule R36). -/
  tlbSeed : Order tlbSlots
  /-- The parameter `FRAME_SEED` (rule R43). -/
  frameSeed : Order numFrames
  /-- The backing store, `BS_SIZE` and `BS_DATA` (rule R63). -/
  bs : BackingStore
  /-- The draws `BS_FAIL`: entry `k` is the device's answer to read number `k`; a read past the end of the list is
  answered (rule R66; log 10). -/
  draws : List Draw
  /-- How many reads the device has been asked for: the `read_index` of the next one (rule R66; log 10). -/
  reads : Nat
  /-- The model's own counter of resets, which indexes the free values of log 3 and log 4 (log 6). -/
  resets : Nat
  /-- The host's inputs that the block has not taken yet, in order (log 1). -/
  inbox : List HostInput
  /-- The response with which the last command ended (rule R96; log 13). -/
  response : Option Resp
  /-- The replies the host has received, oldest first (rule R99; log 13). -/
  sent : List Reply
  deriving DecidableEq, Repr

/-- The order [0, 1, …, n-1], which rule R111 uses for its examples. -/
def ascendingOrder (n : Nat) : Order n := ⟨⟨List.finRange n⟩, by simp⟩

/-- Every TLB slot EMPTY, its frame field unspecified, after the `n`-th reset (rules R34, R215; log 3). -/
def emptyTlb (n : Nat) : Vector TlbSlot tlbSlots :=
  ⟨⟨(List.finRange tlbSlots).map fun k => ⟨none, Config.tlbFrameAtReset n k⟩⟩, by simp⟩

/-- The machine right after reset (rule R215), with ascending seeds (DESIGN CHOICE, log 7), no backing store attached
yet (DESIGN CHOICE, log 8) and no host input. -/
def State.reset : State where
  tlb := emptyTlb 0
  rlT := ascendingOrder tlbSlots
  pt := Vector.replicate numPages none
  mem := []
  resident := Vector.replicate numFrames none
  fill := 0
  rlF := ascendingOrder numFrames
  stat := ⟨0, 0, 0⟩
  fault := none
  tlbSeed := ascendingOrder tlbSlots
  frameSeed := ascendingOrder numFrames
  bs := ⟨0, []⟩
  draws := []
  reads := 0
  resets := 0
  inbox := []
  response := none
  sent := []

end Sys2Proof.Machine
end

