-- ==== Sys2Proof/Machine/Ops.lean ====
section
/-! DEFINITION. The shared operations: reading and writing frame memory (rule R12), reading the backing store (rule
R66), answering a command (rule R12's `respond` and `raise`), and reset (rule R215). -/

namespace Sys2Proof.Machine

/-- The outcome of a command or of a step. -/
abbrev Outcome := Host.Outcome State Fault Refusal

/-! ### Frame memory -/

/-- The canonical form of frame memory: strictly rising physical addresses, all of them addresses that exist (rule
R62). An address that is not listed holds no value of its own, so no entry repeats one. -/
abbrev Memory.wf (m : Memory) : Prop :=
  m.Pairwise (fun a b => a.1 < b.1) ∧ ∀ c ∈ m, c.1 < pspace

/-- The byte that a fill has put at a physical address; `none` where no fill has written since reset. -/
def Memory.read (m : Memory) (pa : Nat) : Option Byte := List.lookup pa m

/-- `MemWrite(pa, n, bytes)`: the bytes in order, from physical address `pa` on (rule R12). -/
def Memory.write (m : Memory) (pa : Nat) (bytes : List Byte) : Memory :=
  m.filter (fun c => c.1 < pa) ++ bytes.mapIdx (fun i b => (pa + i, b)) ++
    m.filter (fun c => pa + bytes.length ≤ c.1)

/-- `MemRead(pa, 1)` (rule R12). A byte that no fill has written since reset is the free value of log 4 (rule R216). -/
def memRead (s : State) (pa : Nat) : Byte :=
  (s.mem.read pa).getD (Config.frameByteAtReset s.resets pa)

/-- `MemWrite(pa, n, bytes)` on the state (rule R12). -/
def memWrite (pa : Nat) (bytes : List Byte) (s : State) : State := { s with mem := s.mem.write pa bytes }

/-! ### The backing store -/

/-- `BS_DATA[i]`, for an offset `i` below `BS_SIZE` (rule R63). -/
def BackingStore.byteAt (b : BackingStore) (i : Nat) : Byte := (List.lookup i b.listed).getD 0

/-- The 256 bytes at offsets `off .. off+255` (rule R66). -/
def BackingStore.pageAt (b : BackingStore) (off : Nat) : List Byte :=
  (List.range pageSize).map fun i => b.byteAt (off + i)

/-- The device's draw for the next read, which decides its outcome where the page lies inside the store (rule R66;
log 10). -/
def nextDraw (s : State) : Draw := s.draws.getD s.reads .answers

/-- What `BSRead(off, 256)` comes to (rules R66, R67). -/
inductive BsAnswer where
  | ok (bytes : List Byte)
  | ioerror
  /-- The read never returns. -/
  | noAnswer
  deriving DecidableEq, Repr

/-- The answer of `BSRead(off, 256)`: an error whenever the page runs past `BS_SIZE`; otherwise as the device's draw says,
the bytes, a failure, or nothing at all when the device never answers (rules R66, R67). -/
def bsAnswer (off : Nat) (s : State) : BsAnswer :=
  if s.bs.size < off + pageSize then .ioerror
  else
    match nextDraw s with
    | .answers => .ok (s.bs.pageAt off)
    | .fails => .ioerror
    | .neverAnswers => .noAnswer

/-- `BSRead(off, 256)` has been asked for: the device's read index advances (rule R66). -/
def countRead (s : State) : State := { s with reads := s.reads + 1 }

/-! ### Answering a command -/

/-- What an operation inside a command comes to: it is done, or it has ended the command with an error response
(`raise`, rule R12), or it waits for ever (rule R67). -/
inductive Attempt (α : Type) where
  | done (a : α) (s : State)
  | raised (e : Resp) (s : State)
  | stuck

/-- `respond R`: the command ends with this response (rule R12). -/
def respond (r : Resp) (s : State) : State := { s with response := some r }

/-- `raise E(info)`: the command ends with the error response, and the changes made before it stay. No state is
saved, no mode changes and no control is transferred; there is no return (rules R12, R195, R196). -/
def raise (e : Resp) (s : State) : Outcome := .next (respond e s)

/-! ### Reset -/

/-- `RESET()`: every piece of the block's own state takes its reset value (rule R215). The seeds, the backing store
and its draws, the host's inputs and the replies it has received are not the block's state and stay. -/
def applyReset (s : State) : State :=
  { s with
    tlb := emptyTlb (s.resets + 1)
    rlT := s.tlbSeed
    pt := Vector.replicate numPages none
    mem := []
    resident := Vector.replicate numFrames none
    fill := 0
    rlF := s.frameSeed
    stat := ⟨0, 0, 0⟩
    fault := none
    resets := s.resets + 1
    response := none }

end Sys2Proof.Machine
end

