-- ==== Sys2Proof/Machine/Attach.lean ====
section
/-! DEFINITION. Attaching a backing store, the boot step of rule R219. -/

namespace Sys2Proof.Machine

/-- The host attaches a backing store (rule R219). The contents are fixed for the run, so a store is taken only while
no page fault since reset has been serviced, which is while `FT.fill` is 0 (rules R42, R64, R226; log 9). -/
def attachStore (store : BackingStore) (s : State) : Outcome :=
  if s.fill = 0 then .next { s with bs := store } else .refused .backingStoreChangedDuringRun

end Sys2Proof.Machine
end

