-- ==== Sys2Proof/Machine/Flags.lean ====
section
/-! DEFINITION. The flag-like state: the sticky FAULT register (rules R32, R45), and the three statistics counters,
each with its single point of increment (rule R44). The block has no condition codes (rule R32). -/

namespace Sys2Proof.Machine

/-- `FAULT <- some (BackingStoreIOError, page)` (rules R45, R153). -/
def setFault (page : PageNo) (s : State) : State := { s with fault := some ⟨.backingStoreIOError, page⟩ }

/-- The page recorded in FAULT (rules R168, R170). -/
def faultPage (s : State) : Option PageNo := s.fault.map FaultRecord.page

/-- `STAT.tlb_hits <- STAT.tlb_hits + 1` (rule R130). -/
def countTlbHit (s : State) : State := { s with stat := { s.stat with tlbHits := s.stat.tlbHits + 1 } }

/-- `STAT.page_faults <- STAT.page_faults + 1` (rule R150 step 2). -/
def countPageFault (s : State) : State := { s with stat := { s.stat with pageFaults := s.stat.pageFaults + 1 } }

/-- `STAT.translated <- STAT.translated + 1` (rule R165 step 6). -/
def countTranslated (s : State) : State := { s with stat := { s.stat with translated := s.stat.translated + 1 } }

end Sys2Proof.Machine
end

