-- ==== Sys2Proof/Machine/Report.lean ====
section
/-! DEFINITION. REPORT (rules R168, R169). -/

namespace Sys2Proof.Machine

/-- The two exact figures of a REPORT with `t > 0` translations, and NO_TRANSLATIONS for none. A receiver of response
words computes them from the three counters by the same rule (rules R98, R168, R169). -/
def ratesOf (t pf h : Nat) : Rates :=
  if t = 0 then .noTranslations else .rates (100 * (pf : Rat) / (t : Rat)) ((h : Rat) / (t : Rat))

/-- `REPORT`: no side effect, answered whether or not FAULT is set (rule R168). -/
def execReport (s : State) : Outcome :=
  .next (respond
    (.reported s.stat.translated s.stat.pageFaults s.stat.tlbHits (faultPage s)
      (ratesOf s.stat.translated s.stat.pageFaults s.stat.tlbHits)) s)

end Sys2Proof.Machine
end

