-- ==== Sys2Proof/Machine/Operands.lean ====
section
/-! DEFINITION. The operand of TRANSLATE and the Address Decomposer (rules R125, R126), and the signed value of a byte
(rule R10). The fields of the command word are taken apart in Decode.lean (rule R88). -/

namespace Sys2Proof.Machine

/-- `DECOMPOSE`, the page: `addr >> 8` (rule R125). -/
def pageOf (va : VAddr) : PageNo :=
  ⟨va.val >>> offsetBits, by
    have h : va.val < 65536 := va.isLt
    show va.val >>> 8 < 256
    simp only [Nat.shiftRight_eq_div_pow]
    omega⟩

/-- `DECOMPOSE`, the offset: `addr & 0xFF` (rule R125). -/
def offsetOf (va : VAddr) : Offset :=
  ⟨va.val &&& 0xFF, Nat.lt_of_le_of_lt Nat.and_le_right (by decide)⟩

/-- `DECOMPOSE(addr)` (rule R125). -/
def decompose (va : VAddr) : PageNo × Offset := (pageOf va, offsetOf va)

/-- `COMPOSE(page, offset)`, on a page or a frame number: `page*256 + offset` (rule R126). -/
def compose (page offset : Nat) : Nat := page * pageSize + offset

/-- `COMPOSE` of a page and an offset as a virtual address (rule R126). -/
def composeVirtual (page : PageNo) (offset : Offset) : VAddr :=
  ⟨compose page offset, by
    have hp : page.val < 256 := page.isLt
    have ho : offset.val < 256 := offset.isLt
    show page.val * 256 + offset.val < 65536
    omega⟩

/-- `COMPOSE` of a frame and an offset as a physical address (rules R62, R126, R165 step 3). -/
def composePhysical (frame : FrameNo) (offset : Offset) : PAddr :=
  ⟨compose frame offset, by
    have hf : frame.val < 128 := frame.isLt
    have ho : offset.val < 256 := offset.isLt
    show frame.val * 256 + offset.val < 32768
    omega⟩

/-- The physical address of a frame's first byte (rules R62, R150 step 4). -/
def frameBase (frame : FrameNo) : Nat := frame.val * pageSize

/-- The backing-store offset of a page's first byte (rules R63, R65). -/
def pageBase (page : PageNo) : Nat := page.val * pageSize

/-- `sext_8(b)`: the signed value of a byte, in two's complement (rule R10; log 18). -/
def sext8 (b : Byte) : Int := if b.toNat < 128 then b.toNat else (b.toNat : Int) - 256

end Sys2Proof.Machine
end

