-- ==== Sys2Proof/Machine/PageTable.lean ====
section
/-! DEFINITION. The page table (rules R142-R145). -/

namespace Sys2Proof.Machine

/-- `IS_VALID(page)` (rule R142). -/
def isValid (page : PageNo) (s : State) : Bool := s.pt[page].isSome

/-- `FRAME_OF(page)`: the frame of a valid page; an invalid one has none (rules R37, R143). Together with `isValid` it
is the one page-table access of a walk (rule R2). -/
def frameOf (page : PageNo) (s : State) : Option FrameNo := s.pt[page]

/-- `MARK_RESIDENT(page, frame)` (rule R144). -/
def markResident (page : PageNo) (frame : FrameNo) (s : State) : State :=
  { s with pt := s.pt.set page (some frame) }

/-- `INVALIDATE(page)`: no TLB slot is written (rules R134, R145). -/
def invalidate (page : PageNo) (s : State) : State := { s with pt := s.pt.set page none }

end Sys2Proof.Machine
end

