-- ==== Sys2Proof/Machine/RecencyList.lean ====
section
/-! DEFINITION. The Recency List (rules R110-R114), used for TLB slots and for frames alike. -/

namespace Sys2Proof.Machine

/-- `SEED(N, σ)`: the order becomes σ (rule R111). -/
def seedOrder {n : Nat} (seed : Order n) : Order n := seed

/-- `PEEK_LEAST()`: the head of the order, which is not changed (rule R113). -/
def peekLeast {n : Nat} [NeZero n] (order : Order n) : Fin n := order[0]'(Nat.pos_of_neZero n)

/-- `PROMOTE(i)` (rule R112). An order that holds every index once loses `i` and gets it back at its end; the `take`
changes nothing there, and keeps the length where an order does not hold `i` at all (log 16). -/
def promote {n : Nat} (order : Order n) (i : Fin n) : Order n :=
  if order.toList.getLast? = some i then order
  else ⟨⟨(order.toList.erase i ++ [i]).take n⟩, by
    have := List.le_length_erase (l := order.toList) (a := i)
    simp at *
    omega⟩

end Sys2Proof.Machine
end

