-- ==== Sys2Proof/Machine/FrameTable.lean ====
section
/-! DEFINITION. The frame table: the demand-paging walker, the page-fault service and the eviction controller
(rules R150-R154), and the read port of frame memory (rule R155). -/

namespace Sys2Proof.Machine

/-- The target of a fill: the next fresh frame while there is one, then the least recently used frame (rule R151). -/
def fillTarget (s : State) : FrameNo :=
  if h : s.fill.val < numFrames then ⟨s.fill.val, h⟩ else peekLeast s.rlF

/-- ENSURE_RESIDENT step 3, what it writes: the fill count on the fresh path, and on the eviction path the page-table
entry of the page the victim holds (rules R150, R151). A victim that holds no page, which rule R159 shows does not
arise while the block is fault-free, invalidates nothing (decision D16). -/
def takeTarget (s : State) : State :=
  if h : s.fill.val < numFrames then { s with fill := ⟨s.fill.val + 1, Nat.succ_lt_succ h⟩ }
  else
    match s.resident[fillTarget s] with
    | some oldPage => invalidate oldPage s
    | none => s

/-- `FT.resident[frame] <- some page` (rule R150 step 5). -/
def setResident (frame : FrameNo) (page : PageNo) (s : State) : State :=
  { s with resident := s.resident.set frame (some page) }

/-- The unspecified bytes a failed read leaves in the target frame (rules R72, R153; log 5). -/
def failedFillBytes (readIndex : Nat) : List Byte :=
  (List.range pageSize).map fun o => Config.failedFillByte readIndex o

/-- ENSURE_RESIDENT steps 4 and 5, the read having succeeded: the fill, then the mapping (rule R152). -/
def fillAndMap (page : PageNo) (target : FrameNo) (bytes : List Byte) (s : State) : State :=
  setResident target page (markResident page target (memWrite (frameBase target) bytes s))

/-- ENSURE_RESIDENT step 4, the read having failed: the target frame's bytes become unspecified and FAULT is set; the
effects of steps 2 and 3 stay (rule R153). -/
def abandonFill (page : PageNo) (target : FrameNo) (readIndex : Nat) (s : State) : State :=
  setFault page (memWrite (frameBase target) (failedFillBytes readIndex) s)

/-- `ENSURE_RESIDENT(page)` (rule R150). It promotes nothing (rule R154). -/
def ensureResident (page : PageNo) (s : State) : Attempt FrameNo :=
  match frameOf page s with
  | some frame => .done frame s
  | none =>
    match bsAnswer (pageBase page) s with
    | .noAnswer => .stuck
    | .ioerror =>
      .raised (.errBackingStoreIO page)
        (abandonFill page (fillTarget s) s.reads (countRead (takeTarget (countPageFault s))))
    | .ok bytes =>
      .done (fillTarget s) (fillAndMap page (fillTarget s) bytes (countRead (takeTarget (countPageFault s))))

/-- `READ_BYTE(frame, offset)` (rule R155). -/
def readByte (frame : FrameNo) (offset : Offset) (s : State) : Int :=
  sext8 (memRead s (composePhysical frame offset))

/-- `RL_F.PROMOTE(frame)` (rules R112, R165 step 5). -/
def promoteFrame (frame : FrameNo) (s : State) : State := { s with rlF := promote s.rlF frame }

end Sys2Proof.Machine
end

