-- ==== Sys2Proof/Machine/Tlb.lean ====
section
/-! DEFINITION. The TLB (rules R130-R136). Nothing here but `install` writes a slot, and nothing invalidates one
(rule R134). -/

namespace Sys2Proof.Machine

/-- The lowest slot that holds the page; an EMPTY slot never matches (rule R130). -/
def findSlot (page : PageNo) (s : State) : Option SlotNo :=
  (List.finRange tlbSlots).find? fun k => s.tlb[k].page = some page

/-- `LOOKUP(page)`: HIT with its slot, counted at once, or MISS with nothing written (rule R130). -/
def tlbLookup (page : PageNo) (s : State) : Option SlotNo × State :=
  match findSlot page s with
  | some k => (some k, countTlbHit s)
  | none => (none, s)

/-- `FRAME_AT(s)` (rule R131). -/
def frameAt (k : SlotNo) (s : State) : FrameNo := s.tlb[k].frame

/-- `INSTALL(s, page, frame)`: the slot is overwritten; the recency list is not touched (rule R132). -/
def install (k : SlotNo) (page : PageNo) (frame : FrameNo) (s : State) : State :=
  { s with tlb := s.tlb.set k ⟨some page, frame⟩ }

/-- `EVICT_CANDIDATE()`: the least recently used slot (rule R133). -/
def evictCandidate (s : State) : SlotNo := peekLeast s.rlT

/-- `RL_T.PROMOTE(s)` (rules R112, R136). -/
def promoteSlot (k : SlotNo) (s : State) : State := { s with rlT := promote s.rlT k }

end Sys2Proof.Machine
end

