-- ==== Sys2Proof/Machine/Translate.lean ====
section
/-! DEFINITION. TRANSLATE and TRANSLATE_MALFORMED (rules R165-R167, R170, R174). -/

namespace Sys2Proof.Machine

/-- TRANSLATE step 2: the slot and the frame that serve the page. On a miss the page is made resident and installed in
the least recently used slot (rule R165). -/
def resolve (page : PageNo) (s : State) : Attempt (SlotNo × FrameNo) :=
  match tlbLookup page s with
  | (some k, s') => .done (k, frameAt k s') s'
  | (none, s') =>
    match ensureResident page s' with
    | .done frame t => .done (evictCandidate t, frame) (install (evictCandidate t) page frame t)
    | .raised e t => .raised e t
    | .stuck => .stuck

/-- TRANSLATE steps 3 to 7: the physical address, the byte, one promotion in each recency list, the count, and the
response (rule R165). -/
def complete (k : SlotNo) (frame : FrameNo) (offset : Offset) (s : State) : State :=
  respond (.translated (composePhysical frame offset) (readByte frame offset s))
    (countTranslated (promoteFrame frame (promoteSlot k s)))

/-- TRANSLATE of an address that passed the range check (rule R165 steps 1 to 7). -/
def translateInRange (va : VAddr) (s : State) : Outcome :=
  match resolve (decompose va).1 s with
  | .done (k, frame) t => .next (complete k frame (decompose va).2 t)
  | .raised e t => raise e t
  | .stuck => .fault .backingStoreNeverAnswers

/-- `TRANSLATE(addr, is_write)` (rules R165, R166, R170). No step reads `is_write`: the block has no store path (rules
R91, R174). -/
def execTranslate (addr : Nat) (_isWrite : Bool) (s : State) : Outcome :=
  match faultPage s with
  | some page => raise (.errFaulted page) s
  | none => if h : addr < vspace then translateInRange ⟨addr, h⟩ s else raise (.errAddressOutOfRange addr) s

/-- `TRANSLATE_MALFORMED` (rules R167, R170). -/
def execTranslateMalformed (s : State) : Outcome :=
  match faultPage s with
  | some page => raise (.errFaulted page) s
  | none => raise .errMalformedRecord s

end Sys2Proof.Machine
end

