-- ==== Sys2Proof/Machine/Dispatch.lean ====
section
/-! DEFINITION. One arm per command of the opcode table. -/

namespace Sys2Proof.Machine

def exec (i : Instr) (s : State) : Host.Outcome State Fault Refusal :=
  match i with
  | .translate addr isWrite => Sys2Proof.Machine.execTranslate addr isWrite s
  | .translateMalformed => Sys2Proof.Machine.execTranslateMalformed s
  | .report => Sys2Proof.Machine.execReport s

end Sys2Proof.Machine
end

