-- ==== Sys2Proof/Machine/Response.lean ====
section
/-! DEFINITION. The response words (rules R97, R98) and how a response reaches the host (rules R96, R99). -/

namespace Sys2Proof.Machine

/-- Response word 0: the status in [63:60], bits [59:32] zero, and the low 32 bits (rule R97). -/
def responseWord (status : BitVec 4) (low : BitVec 32) : Word64 := status ++ (0 : BitVec 28) ++ low

/-- The low bits of a TRANSLATED word: `zext_16(pa)` in [23:8] and the byte pattern in [7:0] (rule R97). -/
def translatedBits (pa : PAddr) (value : Int) : BitVec 32 :=
  (0 : BitVec 8) ++ BitVec.ofNat 16 pa.val ++ BitVec.ofInt 8 value

/-- A page number in [7:0] (rule R97). -/
def pageBits32 (page : PageNo) : BitVec 32 := BitVec.ofNat 32 page.val

/-- The low bits of a REPORTED word: [8] is set when FAULT is, and [7:0] is its page or 0 (rule R97). -/
def reportedBits : Option PageNo → BitVec 32
  | some page => BitVec.ofNat 32 (256 + page.val)
  | none => 0

/-- The status of a REPORTED response (rule R97). -/
def reportedStatus : Rates → BitVec 4
  | .rates _ _ => 0x1
  | .noTranslations => 0x2

/-- The words of a response (rules R97, R98). A REPORTED response with a count of 2^64 or more has none: the spec
defines no response for it (decision D23; log 14). -/
def Resp.pack : Resp → Option (List Word64)
  | .translated pa value => some [responseWord 0x0 (translatedBits pa value)]
  | .reported t pf h fault rates =>
    if t < 2 ^ 64 ∧ pf < 2 ^ 64 ∧ h < 2 ^ 64 then
      some [responseWord (reportedStatus rates) (reportedBits fault),
        BitVec.ofNat 64 t, BitVec.ofNat 64 pf, BitVec.ofNat 64 h]
    else none
  | .errAddressOutOfRange addr => some [responseWord 0x8 (encodeAddr addr)]
  | .errMalformedRecord => some [responseWord 0x9 0]
  | .errBackingStoreIO page => some [responseWord 0xA (pageBits32 page)]
  | .errIllegalCommand => some [responseWord 0xB 0]
  | .errFaulted page => some [responseWord 0xC (pageBits32 page)]

/-- The reply is given to the host (rule R99). -/
def post (r : Reply) (s : State) : State := { s with sent := s.sent ++ [r] }

/-- The response of an abstract command, as it stands (rules R96, R175; log 13). -/
def replyAbstract : Outcome → Outcome
  | .next s =>
    match s.response with
    | some r => .next (post (.response r) s)
    | none => .next s
  | .fault f => .fault f
  | .refused f => .refused f

/-- The response of a command word, as words (rules R97, R98, R175; log 13). -/
def replyWords : Outcome → Outcome
  | .next s =>
    match s.response with
    | some r =>
      match r.pack with
      | some ws => .next (post (.words ws) s)
      | none => .refused .reportCounterNotPackable
    | none => .next s
  | .fault f => .fault f
  | .refused f => .refused f

end Sys2Proof.Machine
end

