-- ==== Sys2Proof/Machine/Perform.lean ====
section
/-! DEFINITION. What the block does with one input of the host (rules R93, R172, R175, R215, R219). -/

namespace Sys2Proof.Machine

/-- The block performs a decoded command word; an illegal one is answered and changes nothing (rules R93, R172). -/
def performDecoded (d : Decoded) (s : State) : Outcome :=
  match d with
  | .command i => replyWords (exec i s)
  | .illegal _ => replyWords (raise .errIllegalCommand s)

/-- One input of the host, taken from the inbox already. -/
def perform (input : HostInput) (s : State) : Outcome :=
  match input with
  | .word w => performDecoded (decode w) s
  | .command i => replyAbstract (exec i s)
  | .reset => .next (applyReset s)
  | .attach store => attachStore store s

end Sys2Proof.Machine
end

