-- ==== Sys2Proof/Machine/Step.lean ====
section
/-! DEFINITION. One step: the block takes the host's next input (rules R6, R13, R175). -/

namespace Sys2Proof.Machine

/-- One step: one whole host input, or nothing while the host presents none (rules R13, R17; log 1). -/
def step (s : State) : Host.Outcome State Fault Refusal :=
  match s.inbox with
  | [] => .next s
  | input :: rest => perform input { s with inbox := rest }

/-- The host presents, as its next input, the command word whose low `nbits` bits are those of `w` and whose other
bits are 0 (log 2). -/
def State.withFetchWord (s : State) (nbits w : Nat) : State :=
  { s with inbox := .word (BitVec.ofNat 64 (w % 2 ^ nbits)) :: s.inbox }

end Sys2Proof.Machine
end

