-- ==== Sys2Proof/Machine/Arena.lean ====
section
/-! DEFINITION. The representation that rule R118 prescribes for a Recency List: an arena-indexed doubly linked list
over the nodes 0..N-1 and the sentinel N, with the abstraction function to the order. The block's state holds the
order itself (rule R110); this is the implementation that conforms to it. -/

namespace Sys2Proof.Machine

/-- `next[0..N]`, `prev[0..N]` and `head`; node `N` is the sentinel `S`, and `none` is the node that `prev[head]` does
not hold (rule R118). -/
structure Arena (n : Nat) where
  next : Vector (Fin (n + 1)) (n + 1)
  prev : Vector (Option (Fin (n + 1))) (n + 1)
  head : Fin n
  deriving DecidableEq, Repr

/-- The index as a node of the arena (rule R118). -/
def arenaNode {n : Nat} (i : Fin n) : Fin (n + 1) := i.castSucc

/-- The sentinel `S` (rule R118). -/
def arenaSentinel (n : Nat) : Fin (n + 1) := Fin.last n

/-- `next[i] <- v`. -/
def arenaSetNext {n : Nat} (i v : Fin (n + 1)) (a : Arena n) : Arena n := { a with next := a.next.set i v }

/-- `prev[i] <- v`. -/
def arenaSetPrev {n : Nat} (i : Fin (n + 1)) (v : Option (Fin (n + 1))) (a : Arena n) : Arena n :=
  { a with prev := a.prev.set i v }

/-- One round of SEED's loop, for position `k` of σ (rule R118). -/
def arenaSeedRound {n : Nat} (seed : Order n) (a : Arena n) (k : Fin n) : Arena n :=
  let next := if h : 0 < k.val then arenaNode (seed[k.val - 1]'(by omega)) else arenaSentinel n
  let prev := if h : k.val + 1 < n then some (arenaNode (seed[k.val + 1]'h)) else none
  arenaSetPrev (arenaNode seed[k]) prev (arenaSetNext (arenaNode seed[k]) next a)

/-- `SEED(σ)`, over whatever the arrays held before; `next[S]` is written by no operation (rule R118). -/
def arenaSeed {n : Nat} [NeZero n] (seed : Order n) (before : Arena n) : Arena n :=
  let linked := (List.finRange n).foldl (arenaSeedRound seed)
    { before with head := seed[n - 1]'(Nat.sub_one_lt (NeZero.ne n)) }
  arenaSetPrev (arenaSentinel n) (some (arenaNode (peekLeast seed))) linked

/-- `PEEK_LEAST()`: `prev[S]` (rule R118). -/
def arenaPeekLeast {n : Nat} (a : Arena n) : Option (Fin (n + 1)) := a.prev[arenaSentinel n]

/-- `PROMOTE(i)` (rule R118). `prev[i]` is a node whenever `i` is not the head. -/
def arenaPromote {n : Nat} (i : Fin n) (a : Arena n) : Arena n :=
  if i = a.head then a
  else
    match a.prev[arenaNode i] with
    | none => a
    | some p =>
      let after := a.next[arenaNode i]
      let unlinked := arenaSetPrev after (some p) (arenaSetNext p after a)
      let relinked := arenaSetPrev (arenaNode i) none
        (arenaSetPrev (arenaNode a.head) (some (arenaNode i))
          (arenaSetNext (arenaNode i) (arenaNode a.head) unlinked))
      { relinked with head := i }

/-- The nodes from `node` on, following `next`, up to but excluding `S`; `fuel` bounds the walk (rule R118). -/
def arenaWalk {n : Nat} (a : Arena n) : Nat → Fin (n + 1) → List (Fin (n + 1))
  | 0, _ => []
  | fuel + 1, node => if node = arenaSentinel n then [] else node :: arenaWalk a fuel a.next[node]

/-- The abstraction: the reverse of the node sequence from `head` (rule R118). -/
def arenaOrder {n : Nat} (a : Arena n) : List (Fin (n + 1)) := (arenaWalk a (n + 1) (arenaNode a.head)).reverse

end Sys2Proof.Machine
end

