-- ==== Sys2Proof/Machine/HostSide.lean ====
section
/-! DEFINITION. What the spec fixes of the host's side: the textual syntax of commands (rule R100), the command that an
address record becomes (rule R101), and the report of a translation (rule R176). The block reads none of it. -/

namespace Sys2Proof.Machine

/-- The value of a decimal digit. -/
def digitValue (c : Char) : Nat := c.toNat - '0'.toNat

/-- The value of a list of decimal digits, most significant first. -/
def decimalValue (cs : List Char) : Nat := cs.foldl (fun v c => 10 * v + digitValue c) 0

/-- The command an address record becomes: its leading decimal digits, whatever trails them, or a malformed record
(rule R101). -/
def recordCommand (record : List Char) : Instr :=
  match record.takeWhile Char.isDigit with
  | [] => .translateMalformed
  | digits => .translate (decimalValue digits) false

/-- A hexadecimal digit. -/
def isHexDigit (c : Char) : Bool := c.isDigit || ('a' ≤ c && c ≤ 'f') || ('A' ≤ c && c ≤ 'F')

/-- The value of a hexadecimal digit. -/
def hexDigitValue (c : Char) : Nat :=
  if c.isDigit then digitValue c
  else if 'a' ≤ c then c.toNat - 'a'.toNat + 10
  else c.toNat - 'A'.toNat + 10

/-- The value of a list of hexadecimal digits, most significant first. -/
def hexValue (cs : List Char) : Nat := cs.foldl (fun v c => 16 * v + hexDigitValue c) 0

/-- `<addr>`: a decimal natural number, or a hexadecimal one after `0x` (rule R100). -/
def parseAddr : List Char → Option Nat
  | '0' :: 'x' :: digits => if digits ≠ [] ∧ digits.all isHexDigit then some (hexValue digits) else none
  | digits => if digits ≠ [] ∧ digits.all Char.isDigit then some (decimalValue digits) else none

/-- White space between the words of a line (log 19). -/
def isBlank (c : Char) : Bool := c = ' ' || c = '\t' || c = '\r' || c = '\n'

/-- Put a word, unless it is empty, before other words. -/
def pushWord (w : List Char) (ws : List (List Char)) : List (List Char) := if w = [] then ws else w :: ws

/-- One character, read from the right, added to the word in progress and the finished words. -/
def splitStep (c : Char) (acc : List Char × List (List Char)) : List Char × List (List Char) :=
  if isBlank c then ([], pushWord acc.1 acc.2) else (c :: acc.1, acc.2)

/-- The words of a line without its comment, which begins at a semicolon (rule R100; log 19). -/
def lineWords (line : List Char) : List (List Char) :=
  let acc := (line.takeWhile (· ≠ ';')).foldr splitStep ([], [])
  pushWord acc.1 acc.2

/-- `translate` (rule R100). -/
def kwTranslate : List Char := ['t', 'r', 'a', 'n', 's', 'l', 'a', 't', 'e']
/-- `translate.w` (rule R100). -/
def kwTranslateW : List Char := kwTranslate ++ ['.', 'w']
/-- `translate.malformed` (rule R100). -/
def kwTranslateMalformed : List Char := kwTranslate ++ ['.', 'm', 'a', 'l', 'f', 'o', 'r', 'm', 'e', 'd']
/-- `report` (rule R100). -/
def kwReport : List Char := ['r', 'e', 'p', 'o', 'r', 't']

/-- The command of one line of text; `none` where the line is no command of rule R100. -/
def assemble (line : List Char) : Option Instr :=
  match lineWords line with
  | [word] =>
    if word = kwTranslateMalformed then some .translateMalformed
    else if word = kwReport then some .report
    else none
  | [word, addr] =>
    if word = kwTranslate then (parseAddr addr).map fun a => .translate a false
    else if word = kwTranslateW then (parseAddr addr).map fun a => .translate a true
    else none
  | _ => none

/-- The host's report of one translation, `(address, physical_address, byte_value)`: the address is the command's own,
since the response does not echo it (rule R176). -/
def translationReport : Instr → Resp → Option (Nat × PAddr × Int)
  | .translate addr _, .translated pa value => some (addr, pa, value)
  | _, _ => none

/-- The two figures that the receiver of a REPORTED response computes from its four words (rules R98, R169). -/
def receivedRates : List Word64 → Option Rates
  | [_, t, pf, h] => some (ratesOf t.toNat pf.toNat h.toNat)
  | _ => none

end Sys2Proof.Machine
end

