-- ==== Sys2Proof/Safety.lean ====
section
/-! DEFINITION. The terms the statements use: well-formed recency orders, what a fault-free block is like (rules R48,
R115, R139-R141, R146, R158, R171), the invariant of every step, and the host's duties as predicates. -/

namespace Sys2Proof.Machine

/-- The state an outcome goes on in, if it does. -/
def nextState? : Outcome → Option State
  | .next s => some s
  | .fault _ => none
  | .refused _ => none

/-- The order holds every index exactly once: it has `n` entries, none of them twice (rule R110). -/
abbrev OrderWf {n : Nat} (order : Order n) : Prop := order.toList.Nodup

/-- The slots of `RL_T` that hold a page, least recently used first (rule R138). -/
def liveSlots (s : State) : List SlotNo := s.rlT.toList.filter fun k => s.tlb[k].page.isSome

/-- The slots of `RL_T` that are EMPTY, in the order of the list (rule R138). -/
def emptySlots (s : State) : List SlotNo := s.rlT.toList.filter fun k => s.tlb[k].page.isNone

/-- What holds of the block while FAULT is `none`. -/
structure Healthy (s : State) : Prop where
  /-- EMPTY slots stand before the others in the TLB's recency order (rules R117, R138). -/
  empty_slots_first : s.rlT.toList = emptySlots s ++ liveSlots s
  /-- No page is held by two slots (rule R139). -/
  slots_hold_distinct_pages : ∀ j k : SlotNo, s.tlb[j].page.isSome → s.tlb[j].page = s.tlb[k].page → j = k
  /-- No stale TLB entry exists (rule R141). -/
  tlb_agrees_with_page_table : ∀ (k : SlotNo) (p : PageNo), s.tlb[k].page = some p → s.pt[p] = some s.tlb[k].frame
  /-- The valid pages are the resident pages of the filled frames (rules R48 items 2 and 3, R146). -/
  valid_iff_resident : ∀ (p : PageNo) (f : FrameNo),
    s.pt[p] = some f ↔ f.val < s.fill.val ∧ s.resident[f] = some p
  /-- Exactly the frames below the fill count hold a page (rule R158). -/
  resident_iff_filled : ∀ f : FrameNo, s.resident[f].isSome ↔ f.val < s.fill.val
  /-- A filled frame holds the bytes of its page (rules R68, R158). -/
  frames_hold_their_pages : ∀ (f : FrameNo) (p : PageNo) (o : Offset), f.val < s.fill.val → s.resident[f] = some p →
    s.mem.read (frameBase f + o.val) = some (s.bs.byteAt (pageBase p + o.val))
  /-- A frame at or above the fill count has never been filled (rule R158). -/
  fresh_frames_unwritten : ∀ pa : Nat, s.fill.val * pageSize ≤ pa → s.mem.read pa = none
  /-- Frames never promoted stand before the others in the frames' recency order (rules R117, R119). -/
  fresh_frames_first : s.rlF.toList =
    s.rlF.toList.filter (fun f => s.fill.val ≤ f.val) ++ s.rlF.toList.filter (fun f => f.val < s.fill.val)
  /-- The frames of the TLB's slots are the most recently used frames, in the same order (rules R138, R141). -/
  live_frames_most_recent : (liveSlots s).map (fun k => s.tlb[k].frame) <:+ s.rlF.toList
  /-- Statistics (rules R48 item 6, R171). -/
  stats_consistent : s.stat.tlbHits + s.stat.pageFaults ≤ s.stat.translated

/-- The invariant of the machine: the recency orders and their seeds are permutations (rule R115), frame memory is in
canonical form, the block is healthy while FAULT is `none` (rule R48), and the statistics laws of rules R156 and R171
hold. -/
structure Inv (s : State) : Prop where
  tlb_order : OrderWf s.rlT
  frame_order : OrderWf s.rlF
  tlb_seed : OrderWf s.tlbSeed
  frame_seed : OrderWf s.frameSeed
  memory : s.mem.wf
  healthy : s.fault = none → Healthy s
  stats_with_fault : s.stat.tlbHits + s.stat.pageFaults ≤ s.stat.translated + (if s.fault.isSome then 1 else 0)
  hits_bounded : s.stat.tlbHits ≤ s.stat.translated
  /-- The fill count is the number of page faults, up to 128: no fault evicts before the 129th (rule R156). -/
  fill_counts_faults : s.fill.val = min numFrames s.stat.pageFaults

/-- No read of the device in this run waits for ever (rule R229). -/
abbrev ReadsReturn (s : State) : Prop := ∀ d ∈ s.draws, d ≠ .neverAnswers

/-- The page lies inside the backing store and the device's next read does not fail (rule R66). -/
abbrev ReadSucceeds (page : PageNo) (s : State) : Prop :=
  nextDraw s = .answers ∧ pageBase page + pageSize ≤ s.bs.size

/-- A TRANSLATE of the page needs a fill, since no slot holds the page and it is invalid, and the read fails: it runs past
BS_SIZE, or the device's draw for it is a failure (rules R66, R150, R153). -/
abbrev FillFails (page : PageNo) (s : State) : Prop :=
  (∀ k : SlotNo, s.tlb[k].page ≠ some page) ∧ s.pt[page] = none ∧
    (s.bs.size < pageBase page + pageSize ∨ nextDraw s = .fails)

/-- A block right after reset with these seeds, this backing store and its draws, and these inputs to come
(rules R215, R219). -/
def coldBlock (seedT : Order tlbSlots) (seedF : Order numFrames) (store : BackingStore) (draws : List Draw)
    (inputs : List HostInput) : State :=
  { State.reset with
    rlT := seedT, rlF := seedF, tlbSeed := seedT, frameSeed := seedF, bs := store, draws := draws, inbox := inputs }

end Sys2Proof.Machine
end

