-- ==== Sys2Proof/Certificates/Slice0/Obligations.lean ====
section
/-! DEFINITION. The statements for the provers. Each docstring names the rule of the spec it formalises, or says that it
is derived. "page p, offset o" means the virtual address p*256 + o. -/

open Sys2Proof Sys2Proof.Machine

/-! ### Parameters, encoding, responses -/

/-- Rule R8: the parameters satisfy the constraints the rule puts on them. -/
def Obligations.ParametersSatisfyTheirConstraints : Prop :=
  vspace = numPages * pageSize ∧ 1 ≤ tlbSlots ∧ tlbSlots ≤ numFrames ∧ numFrames ≤ numPages ∧
    (vspace = 65536 ∧ numPages = 256 ∧ pageSize = 256 ∧ tlbSlots = 16 ∧ numFrames = 128)

/-- Rule R94, with the fields written as arithmetic on the word's value: OP is bits [63:60], RSVD bits [59:34], M bit 33,
W bit 32, ADDR bits [31:0]. -/
def Obligations.DecoderFollowsItsRule : Prop :=
  ∀ w : Word64,
    let op := w.toNat / 2 ^ 60
    let rsvd := w.toNat / 2 ^ 34 % 2 ^ 26
    let m := w.toNat / 2 ^ 33 % 2
    (op = 1 ∧ rsvd = 0 ∧ m = 1 → decode w = .command .translateMalformed) ∧
    (op = 1 ∧ rsvd = 0 ∧ m = 0 →
      decode w = .command (.translate (w.toNat % 2 ^ 32) (decide (w.toNat / 2 ^ 32 % 2 = 1)))) ∧
    (op = 2 ∧ w.toNat % 2 ^ 60 = 0 → decode w = .command .report) ∧
    (¬ (op = 1 ∧ rsvd = 0) → ¬ (op = 2 ∧ w.toNat % 2 ^ 60 = 0) → decode w = .illegal w)

/-- Rule R95: the match and mask values of the three commands, that a word is a row's exactly when the decoder reads that
row's command from it, and that no word matches two rows. -/
def Obligations.OpcodeRowsAgreeWithTheDecoder : Prop :=
  ∀ w : Word64,
    (w &&& 0xFFFFFFFE00000000 = 0x1000000000000000 ↔ ∃ a b, decode w = .command (.translate a b)) ∧
    (w &&& 0xFFFFFFFE00000000 = 0x1000000200000000 ↔ decode w = .command .translateMalformed) ∧
    (w &&& 0xFFFFFFFFFFFFFFFF = 0x2000000000000000 ↔ decode w = .command .report) ∧
    opcodeRows.map (fun r => (r.mnemonic, r.mask, r.value)) =
      [("TRANSLATE", 0xFFFFFFFE00000000, 0x1000000000000000),
       ("TRANSLATE_MALFORMED", 0xFFFFFFFE00000000, 0x1000000200000000),
       ("REPORT", 0xFFFFFFFFFFFFFFFF, 0x2000000000000000)] ∧
    (opcodeRows.filter fun r => r.covers w).length ≤ 1 ∧
    ((opcodeRows.filter fun r => r.covers w).length = 0 ↔ decode w = .illegal w)

/-- Derived from rules R86, R88, R90 and R92: the decoder reads from the word of a command the command itself, with every
address below 2^32 and either value of is_write. -/
def Obligations.DecodingAnEncodedCommandGivesItBack : Prop :=
  ∀ i : Instr, i.wellFormed = true → decode (encode i) = .command i

/-- Derived from rules R86, R88 and R92: a TRANSLATE or REPORT word is the word of the command it decodes to, so no bit of
it is dropped. (A TRANSLATE_MALFORMED word carries ignored bits, rule R90.) -/
def Obligations.EncodingADecodedCommandGivesItBack : Prop :=
  ∀ (w : Word64) (i : Instr), decode w = .command i → i ≠ .translateMalformed → encode i = w

/-- Rule R89: an address of 2^32 or more has the word of 0xFFFFFFFF; the block's answer to it is an error of the same
kind, and the abstract form carries the exact integer. -/
def Obligations.WideAddressesSaturateInTheWordForm : Prop :=
  ∀ (addr : Nat) (isWrite : Bool) (s : State), 2 ^ 32 ≤ addr →
    decode (encode (.translate addr isWrite)) = .command (.translate 0xFFFFFFFF isWrite) ∧
    (s.fault = none →
      exec (.translate 0xFFFFFFFF isWrite) s =
        .next { s with response := some (.errAddressOutOfRange 0xFFFFFFFF) } ∧
      exec (.translate addr isWrite) s = .next { s with response := some (.errAddressOutOfRange addr) })

/-- Derived from rules R87 to R92 and the words of 95_test_vectors.md: one word or more of each command, and illegal ones,
decoded. -/
def Obligations.SampleWordsDecodeAsTheSpecSays : Prop :=
  decode 0x100000000000FFFF = .command (.translate 65535 false) ∧
  decode 0x1000000100001234 = .command (.translate 4660 true) ∧
  decode 0x10000000FFFFFFFF = .command (.translate 4294967295 false) ∧
  decode 0x1000000300001234 = .command .translateMalformed ∧
  decode 0x2000000000000000 = .command .report ∧
  decode 0x2000000000000001 = .illegal 0x2000000000000001 ∧
  decode 0x1000000400000000 = .illegal 0x1000000400000000 ∧
  decode 0 = .illegal 0 ∧ decode 0x3000000000000000 = .illegal 0x3000000000000000

/-- Rule R97, with each word as a number: the status stands in bits [63:60]. -/
def Obligations.ResponseWordsFollowTheStatusTable : Prop :=
  (∀ (pa : PAddr) (v : Int), -128 ≤ v → v ≤ 127 →
    (Resp.translated pa v).pack = some [BitVec.ofNat 64 (pa.val * 256 + (v % 256).toNat)]) ∧
  (∀ (t pf h : Nat) (fault : Option PageNo) (rates : Rates), t < 2 ^ 64 → pf < 2 ^ 64 → h < 2 ^ 64 →
    ∃ rest, (Resp.reported t pf h fault rates).pack = some (BitVec.ofNat 64
      ((if rates = .noTranslations then 2 else 1) * 2 ^ 60 +
        (match fault with | some p => 256 + p.val | none => 0)) :: rest) ∧ rest.length = 3) ∧
  (∀ addr : Nat, addr < 2 ^ 32 →
    (Resp.errAddressOutOfRange addr).pack = some [BitVec.ofNat 64 (8 * 2 ^ 60 + addr)]) ∧
  Resp.errMalformedRecord.pack = some [BitVec.ofNat 64 (9 * 2 ^ 60)] ∧
  (∀ p : PageNo, (Resp.errBackingStoreIO p).pack = some [BitVec.ofNat 64 (10 * 2 ^ 60 + p.val)]) ∧
  Resp.errIllegalCommand.pack = some [BitVec.ofNat 64 (11 * 2 ^ 60)] ∧
  (∀ p : PageNo, (Resp.errFaulted p).pack = some [BitVec.ofNat 64 (12 * 2 ^ 60 + p.val)]) ∧
  (∀ (r : Resp) (w : Word64) (ws : List Word64), r.pack = some (w :: ws) →
    w.toNat / 2 ^ 60 ∈ [0, 1, 2, 8, 9, 10, 11, 12])

/-- Rule R98: a REPORTED response is four words, word 0 as in rule R97 and the last three the counters, from which the receiver computes the two
figures; a count of 2^64 or more has no words (decision D23). -/
def Obligations.ReportedResponsesAreFourWords : Prop :=
  ∀ (s t : State) (r : Resp), exec .report s = .next t → t.response = some r →
    (s.stat.translated < 2 ^ 64 ∧ s.stat.pageFaults < 2 ^ 64 ∧ s.stat.tlbHits < 2 ^ 64 →
      ∃ ws, r.pack = some ws ∧
        ws = [BitVec.ofNat 64 ((if s.stat.translated = 0 then 2 else 1) * 2 ^ 60 +
            (match s.fault with | some e => 256 + e.page.val | none => 0)),
          BitVec.ofNat 64 s.stat.translated, BitVec.ofNat 64 s.stat.pageFaults, BitVec.ofNat 64 s.stat.tlbHits] ∧
        receivedRates ws = some (if s.stat.translated = 0 then .noTranslations
          else .rates (100 * (s.stat.pageFaults : Rat) / (s.stat.translated : Rat))
            ((s.stat.tlbHits : Rat) / (s.stat.translated : Rat)))) ∧
    (¬ (s.stat.translated < 2 ^ 64 ∧ s.stat.pageFaults < 2 ^ 64 ∧ s.stat.tlbHits < 2 ^ 64) → r.pack = none)

/-! ### The host's side -/

/-- Rule R101: a record that begins with decimal digits becomes TRANSLATE of their value, whatever trails them, and any
other record is malformed. -/
def Obligations.RecordsBecomeCommands : Prop :=
  (∀ digits rest : List Char, digits ≠ [] → (∀ c ∈ digits, c.isDigit = true) →
    (∀ c, rest.head? = some c → c.isDigit = false) →
    recordCommand (digits ++ rest) =
      .translate (digits.foldl (fun v c => 10 * v + (c.toNat - '0'.toNat)) 0) false) ∧
  (∀ record : List Char, (∀ c, record.head? = some c → c.isDigit = false) →
    recordCommand record = .translateMalformed)

/-- Derived from rule R100: the command lines of the syntax, with any decimal address and with any hexadecimal address
after `0x`; a comment from a semicolon on changes nothing; and a line that is a command begins with one of the four
mnemonics, in lower case. (That hexadecimal digits may be of either case, and what separates words, is the model's choice,
log 19.) -/
def Obligations.CommandLinesAssemble : Prop :=
  (∀ digits : List Char, digits ≠ [] → (∀ c ∈ digits, c.isDigit = true) →
    let value := digits.foldl (fun v c => 10 * v + (c.toNat - '0'.toNat)) 0
    assemble (kwTranslate ++ [' '] ++ digits) = some (.translate value false) ∧
    assemble (kwTranslateW ++ [' '] ++ digits) = some (.translate value true)) ∧
  (∀ digits : List Char,
    let hexDigits := ['0', '1', '2', '3', '4', '5', '6', '7', '8', '9', 'a', 'b', 'c', 'd', 'e', 'f', 'A', 'B', 'C', 'D', 'E', 'F']
    let place := fun c : Char => hexDigits.idxOf c
    let value := digits.foldl (fun v c => 16 * v + (if place c < 16 then place c else place c - 6)) 0
    digits ≠ [] → (∀ c ∈ digits, c ∈ hexDigits) →
    assemble (kwTranslate ++ [' ', '0', 'x'] ++ digits) = some (.translate value false) ∧
    assemble (kwTranslateW ++ [' ', '0', 'x'] ++ digits) = some (.translate value true)) ∧
  assemble kwTranslateMalformed = some .translateMalformed ∧ assemble kwReport = some .report ∧
  (∀ line comment : List Char, assemble (line ++ ';' :: comment) = assemble line) ∧
  (∀ (line : List Char) (i : Instr), assemble line = some i →
    ∃ word rest, lineWords line = word :: rest ∧
      word ∈ [kwTranslate, kwTranslateW, kwTranslateMalformed, kwReport])

/-! ### The component operations -/

/-- Rule R127: COMPOSE undoes DECOMPOSE for every virtual address, and DECOMPOSE undoes COMPOSE for every page and
offset. -/
def Obligations.ComposeAndDecomposeRoundTrip : Prop :=
  (∀ va : VAddr, (composeVirtual (decompose va).1 (decompose va).2) = va) ∧
  (∀ (p : PageNo) (o : Offset), decompose (composeVirtual p o) = (p, o)) ∧
  (∀ (p : PageNo) (o : Offset), (composeVirtual p o).val = p.val * 256 + o.val)

/-- Rule R116: counted from the least recently used end, an index promoted and not promoted since stands at the number of
other indices that have not been promoted since; so it is the least recently used one only after every other index has been
promoted. -/
def Obligations.LruLaw : Prop :=
  ∀ (n : Nat) (_ : NeZero n) (order : Order n) (x : Fin n) (since : List (Fin n)),
    OrderWf order → x ∉ since →
    ((since.foldl promote (promote order x)).toList.idxOf x =
      ((List.finRange n).filter fun y => decide (y ≠ x ∧ y ∉ since)).length) ∧
    (peekLeast (since.foldl promote (promote order x)) = x → ∀ y, y ≠ x → y ∈ since)

/-- Rule R117: after promotions, the indices never promoted stand first, in the order they had, and then the promoted ones
in the order of their last promotion, the most recent last (`List.dedup` keeps each element's last occurrence). -/
def Obligations.OrderAfterPromotions : Prop :=
  ∀ (n : Nat) (seed : Order n) (promoted : List (Fin n)), OrderWf seed →
    (promoted.foldl promote seed).toList =
      (seed.toList.filter fun i => decide (i ∉ promoted)) ++ promoted.dedup

/-- Rule R118: the arena-indexed linked list implements the Recency List. Seeded with a permutation, its abstraction is
that permutation; PEEK_LEAST gives its head; and PROMOTE leads to the very arena that seeding with the promoted order would
have given. -/
def Obligations.ArenaImplementsTheRecencyList : Prop :=
  ∀ (n : Nat) (_ : NeZero n) (before : Arena n) (order : Order n) (i : Fin n), OrderWf order →
    arenaOrder (arenaSeed order before) = order.toList.map arenaNode ∧
    arenaPeekLeast (arenaSeed order before) = some (arenaNode (peekLeast order)) ∧
    arenaPromote i (arenaSeed order before) = arenaSeed (promote order i) before

/-- Rule R130: LOOKUP gives the lowest slot that holds the page and counts the hit, or misses and changes nothing. -/
def Obligations.LookupFindsTheLowestMatchingSlot : Prop :=
  ∀ (page : PageNo) (s : State),
    (∀ k : SlotNo, s.tlb[k].page = some page → (∀ j < k, s.tlb[j].page ≠ some page) →
      tlbLookup page s = (some k, { s with stat := { s.stat with tlbHits := s.stat.tlbHits + 1 } })) ∧
    ((∀ k : SlotNo, s.tlb[k].page ≠ some page) → tlbLookup page s = (none, s)) ∧
    (∀ (k : SlotNo) (t : State), tlbLookup page s = (some k, t) →
      s.tlb[k].page = some page ∧ ∀ j < k, s.tlb[j].page ≠ some page)

/-- Rules R144 and R145: MARK_RESIDENT and INVALIDATE write the one page-table entry and nothing else. -/
def Obligations.PageTableOperationsWriteOneEntry : Prop :=
  ∀ (p : PageNo) (f : FrameNo) (s : State),
    (∀ q : PageNo, (markResident p f s).pt[q] = if q = p then some f else s.pt[q]) ∧
    (∀ q : PageNo, (invalidate p s).pt[q] = if q = p then none else s.pt[q]) ∧
    markResident p f s = { s with pt := (markResident p f s).pt } ∧
    invalidate p s = { s with pt := (invalidate p s).pt }

/-- Derived from rules R155 and R10: READ_BYTE is the signed value of the stored pattern, in -128..127, at physical address
frame*256 + offset. That the value of a pattern b of 128 or more is b - 256, two's complement, is PRESUMED: rule R10 marks
it "from general knowledge, not in source" (log 18). -/
def Obligations.ReadByteIsTheSignedPattern : Prop :=
  ∀ (f : FrameNo) (o : Offset) (s : State) (b : Byte), List.lookup (f.val * 256 + o.val) s.mem = some b →
    readByte f o s = (if b.toNat < 128 then (b.toNat : Int) else (b.toNat : Int) - 256) ∧
    -128 ≤ readByte f o s ∧ readByte f o s ≤ 127

/-- Rule R150, step 1: a valid page is served at once, with no fault, no read of the device and no count. -/
def Obligations.ResidentPagesAreServedWithoutAFault : Prop :=
  ∀ (p : PageNo) (f : FrameNo) (s : State), s.pt[p] = some f → ensureResident p s = .done f s

/-- Rule R68: after a successful fill of frame f with page p every byte of the frame is the page's, offset for offset; and
no other byte of frame memory has changed. -/
def Obligations.AFillPlacesThePageByteForByte : Prop :=
  ∀ (p : PageNo) (f : FrameNo) (s t : State), s.pt[p] = none → ensureResident p s = .done f t →
    f = fillTarget s ∧
    (∀ o : Nat, o < 256 → memRead t (f.val * 256 + o) = s.bs.byteAt (p.val * 256 + o)) ∧
    (∀ pa : Nat, ¬ (f.val * 256 ≤ pa ∧ pa < f.val * 256 + 256) → memRead t pa = memRead s pa)

/-! ### The commands: what each answers, as a whole next state -/

/-- Rule R165 on a TLB hit: the answer, one promotion in each list, the two counts, and nothing else. -/
def Obligations.TranslateOnATlbHit : Prop :=
  ∀ (s : State) (p : PageNo) (o : Offset) (isWrite : Bool) (k : SlotNo), s.fault = none →
    s.tlb[k].page = some p → (∀ j < k, s.tlb[j].page ≠ some p) →
    exec (.translate (p.val * 256 + o.val) isWrite) s = .next
      { s with
        rlT := promote s.rlT k
        rlF := promote s.rlF s.tlb[k].frame
        stat := ⟨s.stat.translated + 1, s.stat.pageFaults, s.stat.tlbHits + 1⟩
        response := some (.translated (composePhysical s.tlb[k].frame o)
          (sext8 (memRead s (s.tlb[k].frame.val * 256 + o.val)))) }

/-- Rule R165 on a TLB miss whose page is valid: the mapping goes into the least recently used slot; no fault, no read of
the device. -/
def Obligations.TranslateOnAPageTableHit : Prop :=
  ∀ (s : State) (p : PageNo) (o : Offset) (isWrite : Bool) (f : FrameNo), s.fault = none →
    (∀ j : SlotNo, s.tlb[j].page ≠ some p) → s.pt[p] = some f →
    exec (.translate (p.val * 256 + o.val) isWrite) s = .next
      { s with
        tlb := s.tlb.set (peekLeast s.rlT) ⟨some p, f⟩
        rlT := promote s.rlT (peekLeast s.rlT)
        rlF := promote s.rlF f
        stat := ⟨s.stat.translated + 1, s.stat.pageFaults, s.stat.tlbHits⟩
        response := some (.translated (composePhysical f o) (sext8 (memRead s (f.val * 256 + o.val)))) }

/-- Rules R150 to R152 and R165 on a page fault while fresh frames remain: the next fresh frame is filled from the backing
store, mapped and installed. Every field is given; the frame's 256 bytes are the page's, and the rest of memory is as it
was. -/
def Obligations.TranslateOnAPageFaultTakesTheNextFreshFrame : Prop :=
  ∀ (s : State) (p : PageNo) (o : Offset) (isWrite : Bool) (f : FrameNo), s.fault = none →
    (∀ j : SlotNo, s.tlb[j].page ≠ some p) → s.pt[p] = none → s.fill.val = f.val → ReadSucceeds p s →
    ∃ t, exec (.translate (p.val * 256 + o.val) isWrite) s = .next t ∧
      t.fill.val = s.fill.val + 1 ∧
      (∀ i : Nat, i < 256 → memRead t (f.val * 256 + i) = s.bs.byteAt (p.val * 256 + i)) ∧
      (∀ pa : Nat, ¬ (f.val * 256 ≤ pa ∧ pa < f.val * 256 + 256) → memRead t pa = memRead s pa) ∧
      t = { s with
        tlb := s.tlb.set (peekLeast s.rlT) ⟨some p, f⟩
        rlT := promote s.rlT (peekLeast s.rlT)
        pt := s.pt.set p (some f)
        mem := t.mem
        resident := s.resident.set f (some p)
        fill := t.fill
        rlF := promote s.rlF f
        stat := ⟨s.stat.translated + 1, s.stat.pageFaults + 1, s.stat.tlbHits⟩
        reads := s.reads + 1
        response := some (.translated (composePhysical f o) (sext8 (s.bs.byteAt (p.val * 256 + o.val)))) }

/-- Rules R150 to R152 and R165 on a page fault once every frame has been handed out: the least recently used frame is
refilled, and the page it held becomes invalid. (A victim that holds no page, unreachable by rule R159, invalidates
nothing: decision D16.) -/
def Obligations.TranslateOnAPageFaultEvictsTheLeastRecentFrame : Prop :=
  ∀ (s : State) (p : PageNo) (o : Offset) (isWrite : Bool) (f : FrameNo), s.fault = none →
    (∀ j : SlotNo, s.tlb[j].page ≠ some p) → s.pt[p] = none → s.fill.val = 128 → peekLeast s.rlF = f →
    ReadSucceeds p s →
    ∃ t, exec (.translate (p.val * 256 + o.val) isWrite) s = .next t ∧
      (∀ i : Nat, i < 256 → memRead t (f.val * 256 + i) = s.bs.byteAt (p.val * 256 + i)) ∧
      (∀ pa : Nat, ¬ (f.val * 256 ≤ pa ∧ pa < f.val * 256 + 256) → memRead t pa = memRead s pa) ∧
      t = { s with
        tlb := s.tlb.set (peekLeast s.rlT) ⟨some p, f⟩
        rlT := promote s.rlT (peekLeast s.rlT)
        pt := (match s.resident[f] with | some old => s.pt.set old none | none => s.pt).set p (some f)
        mem := t.mem
        resident := s.resident.set f (some p)
        rlF := promote s.rlF f
        stat := ⟨s.stat.translated + 1, s.stat.pageFaults + 1, s.stat.tlbHits⟩
        reads := s.reads + 1
        response := some (.translated (composePhysical f o) (sext8 (s.bs.byteAt (p.val * 256 + o.val)))) }

/-- Rule R153: when the fill fails, the command ends with ERR_BACKING_STORE_IO and FAULT is set; the fault count, and the
fresh frame or the invalidated victim, stay; the bytes of the target frame are left open, and every other byte of memory,
the TLB, both recency lists, FT.resident and the other counters are as they were. -/
def Obligations.TranslateWhoseFillFails : Prop :=
  ∀ (s : State) (p : PageNo) (o : Offset) (isWrite : Bool) (f : FrameNo), s.fault = none →
    (∀ j : SlotNo, s.tlb[j].page ≠ some p) → s.pt[p] = none →
    (s.bs.size < p.val * 256 + 256 ∨ nextDraw s = .fails) →
    (s.fill.val < 128 ∧ f.val = s.fill.val ∨ s.fill.val = 128 ∧ f = peekLeast s.rlF) →
    ∃ t, exec (.translate (p.val * 256 + o.val) isWrite) s = .next t ∧
      t.fill.val = (if s.fill.val < 128 then s.fill.val + 1 else s.fill.val) ∧
      (∀ pa : Nat, ¬ (f.val * 256 ≤ pa ∧ pa < f.val * 256 + 256) → memRead t pa = memRead s pa) ∧
      t = { s with
        pt := if s.fill.val < 128 then s.pt
          else match s.resident[f] with | some old => s.pt.set old none | none => s.pt
        mem := t.mem
        fill := t.fill
        stat := ⟨s.stat.translated, s.stat.pageFaults + 1, s.stat.tlbHits⟩
        fault := some ⟨.backingStoreIOError, p⟩
        reads := s.reads + 1
        response := some (.errBackingStoreIO p) }

/-- Derived from rules R66, R67 and R229: a command waits for ever exactly when it is a TRANSLATE, in range and with FAULT
clear, of a page that no TLB slot holds, that is invalid and that lies inside the backing store, and the device never
answers. Nothing else stops a command: a read past BS_SIZE always comes back, with an error. That the stuck state is written
as the named fault `backingStoreNeverAnswers`, since a step has no fourth outcome, is the model's inference (rule R67 says
"not as a fault"; DEDUCED, log 11). -/
def Obligations.OnlyASilentBackingStoreBlocksACommand : Prop :=
  ∀ (i : Instr) (s : State),
    ((∃ t, exec i s = .next t) ∨ exec i s = .fault .backingStoreNeverAnswers) ∧
    (exec i s = .fault .backingStoreNeverAnswers ↔
      ∃ (p : PageNo) (o : Offset) (isWrite : Bool), i = .translate (p.val * 256 + o.val) isWrite ∧ s.fault = none ∧
        (∀ j : SlotNo, s.tlb[j].page ≠ some p) ∧ s.pt[p] = none ∧ p.val * 256 + 256 ≤ s.bs.size ∧
        nextDraw s = .neverAnswers)

/-- Rule R166: an address outside 0..65535 is answered with ERR_ADDRESS_OUT_OF_RANGE and changes no state. -/
def Obligations.OutOfRangeAddressesAreRejected : Prop :=
  ∀ (s : State) (addr : Nat) (isWrite : Bool), s.fault = none → 65535 < addr →
    exec (.translate addr isWrite) s = .next { s with response := some (.errAddressOutOfRange addr) }

/-- Rule R167: TRANSLATE_MALFORMED is answered with ERR_MALFORMED_RECORD, or with ERR_FAULTED while FAULT is set, and
changes no state. -/
def Obligations.MalformedRecordsAreRejected : Prop :=
  ∀ s : State,
    (s.fault = none → exec .translateMalformed s = .next { s with response := some .errMalformedRecord }) ∧
    (∀ r, s.fault = some r →
      exec .translateMalformed s = .next { s with response := some (.errFaulted r.page) })

/-- Rules R168 and R169: REPORT answers with the counters, the fault page and the exact figures, in every state, and
changes none. -/
def Obligations.ReportGivesTheStatistics : Prop :=
  ∀ s : State, exec .report s = .next { s with response := some (.reported s.stat.translated s.stat.pageFaults
    s.stat.tlbHits (s.fault.map FaultRecord.page)
    (if s.stat.translated = 0 then .noTranslations
      else .rates (100 * (s.stat.pageFaults : Rat) / (s.stat.translated : Rat))
        ((s.stat.tlbHits : Rat) / (s.stat.translated : Rat)))) }

/-- Rule R170: while FAULT is set, every TRANSLATE, in range or not, and TRANSLATE_MALFORMED are answered with ERR_FAULTED
and change nothing; REPORT is still answered; and no step but a reset clears FAULT. -/
def Obligations.AFaultedBlockTranslatesNothing : Prop :=
  ∀ (s : State) (r : FaultRecord), s.fault = some r →
    (∀ (addr : Nat) (isWrite : Bool),
      exec (.translate addr isWrite) s = .next { s with response := some (.errFaulted r.page) }) ∧
    exec .translateMalformed s = .next { s with response := some (.errFaulted r.page) } ∧
    (∃ t, exec .report s = .next t ∧ t = { s with response := t.response }) ∧
    (∀ t, step s = .next t → s.inbox.head? ≠ some .reset → t.fault = some r)

/-- Rule R91: TRANSLATE with is_write set behaves exactly like the same command with it clear. -/
def Obligations.IsWriteChangesNothing : Prop :=
  ∀ (s : State) (addr : Nat), exec (.translate addr true) s = exec (.translate addr false) s

/-! ### Frames: what a command leaves as it was -/

/-- Derived from rules R132, R144, R145, R150, R152, R165: what a TRANSLATE that answers leaves as it was. The TLB slots
but the least recently used one, `FT.resident` but the target frame's, every byte of memory outside the target frame that
`fillTarget` computes; and, unless the page faults, all of memory, the page table, `FT.resident`, `FT.fill` and the device's
read count. The seeds, the backing store, its draws, the reset count and the host's queues never change. -/
def Obligations.TranslateFrame : Prop :=
  ∀ (s t : State) (addr : Nat) (isWrite : Bool), exec (.translate addr isWrite) s = .next t →
    (∀ k : SlotNo, k ≠ peekLeast s.rlT → t.tlb[k] = s.tlb[k]) ∧
    (∀ f : FrameNo, f ≠ fillTarget s → t.resident[f] = s.resident[f]) ∧
    (∀ pa : Nat, ¬ (frameBase (fillTarget s) ≤ pa ∧ pa < frameBase (fillTarget s) + pageSize) →
      memRead t pa = memRead s pa) ∧
    (¬ (s.fault = none ∧ ∃ p : PageNo, addr / 256 = p.val ∧ (∀ j : SlotNo, s.tlb[j].page ≠ some p) ∧ s.pt[p] = none) →
      t.mem = s.mem ∧ t.pt = s.pt ∧ t.resident = s.resident ∧ t.fill = s.fill ∧ t.reads = s.reads) ∧
    t.tlbSeed = s.tlbSeed ∧ t.frameSeed = s.frameSeed ∧ t.bs = s.bs ∧ t.draws = s.draws ∧ t.resets = s.resets ∧
    t.inbox = s.inbox ∧ t.sent = s.sent

/-- Derived from rules R167 and R168: TRANSLATE_MALFORMED and REPORT change nothing but the response. -/
def Obligations.MalformedAndReportFrame : Prop :=
  ∀ (i : Instr) (s t : State), exec i s = .next t → i = .translateMalformed ∨ i = .report →
    t = { s with response := t.response }

/-- Derived from rule R195 (its second sentence): after every error response but ERR_BACKING_STORE_IO the block's state is
as it was before the command. -/
def Obligations.ErrorsArePrecise : Prop :=
  ∀ (i : Instr) (s t : State), exec i s = .next t →
    (∃ a, t.response = some (.errAddressOutOfRange a)) ∨ t.response = some .errMalformedRecord ∨
      (∃ p, t.response = some (.errFaulted p)) →
    t = { s with response := t.response }

/-- Rule R223: a command that answers TRANSLATED has promoted exactly one TLB slot and exactly one frame: the lowest slot
that held the page, or where none did the least recently used one, which holds it now (rule R136); and the frame of that
mapping, from which the byte was read. Any other command has promoted nothing. -/
def Obligations.OnePromotionInEachListPerTranslation : Prop :=
  ∀ (i : Instr) (s t : State), exec i s = .next t →
    (∀ pa v, t.response = some (.translated pa v) →
      ∃ (p : PageNo) (o : Offset) (isWrite : Bool) (k : SlotNo) (f : FrameNo),
        i = .translate (p.val * 256 + o.val) isWrite ∧
        (s.tlb[k].page = some p ∧ (∀ j < k, s.tlb[j].page ≠ some p) ∨
          (∀ j : SlotNo, s.tlb[j].page ≠ some p) ∧ k = peekLeast s.rlT) ∧
        t.tlb[k] = ⟨some p, f⟩ ∧ pa.val = f.val * 256 + o.val ∧
        t.rlT = promote s.rlT k ∧ t.rlF = promote s.rlF f) ∧
    ((∀ pa v, t.response ≠ some (.translated pa v)) → t.rlT = s.rlT ∧ t.rlF = s.rlF)

/-- Rule R44, per command: `translated` rises by one exactly when the response is TRANSLATED, `tlb_hits` exactly when a
TRANSLATE in range, with FAULT clear, finds its page in a slot, and `page_faults` exactly when it finds it in no slot and
invalid. No command lowers or clears a counter. -/
def Obligations.CountersRiseAtTheirOnePoint : Prop :=
  ∀ (i : Instr) (s t : State), exec i s = .next t →
    (∀ pa v, t.response = some (.translated pa v) → t.stat.translated = s.stat.translated + 1) ∧
    ((∀ pa v, t.response ≠ some (.translated pa v)) → t.stat.translated = s.stat.translated) ∧
    ((∃ (p : PageNo) (o : Offset) (isWrite : Bool), i = .translate (p.val * 256 + o.val) isWrite ∧ s.fault = none ∧
        ∃ k : SlotNo, s.tlb[k].page = some p) →
      t.stat.tlbHits = s.stat.tlbHits + 1 ∧ t.stat.pageFaults = s.stat.pageFaults) ∧
    ((∃ (p : PageNo) (o : Offset) (isWrite : Bool), i = .translate (p.val * 256 + o.val) isWrite ∧ s.fault = none ∧
        (∀ k : SlotNo, s.tlb[k].page ≠ some p) ∧ s.pt[p] = none) →
      t.stat.tlbHits = s.stat.tlbHits ∧ t.stat.pageFaults = s.stat.pageFaults + 1) ∧
    ((∀ (p : PageNo) (o : Offset) (isWrite : Bool), i = .translate (p.val * 256 + o.val) isWrite → s.fault = none →
        (∀ k : SlotNo, s.tlb[k].page ≠ some p) ∧ s.pt[p] ≠ none) →
      t.stat.tlbHits = s.stat.tlbHits ∧ t.stat.pageFaults = s.stat.pageFaults)

/-- Derived from rules R42 and R151: a command keeps the fill count, but for a page fault while it is below 128, which
raises it by one. -/
def Obligations.FillCountRisesOncePerFreshFault : Prop :=
  ∀ (i : Instr) (s t : State), exec i s = .next t →
    t.fill.val = s.fill.val +
      if t.stat.pageFaults = s.stat.pageFaults + 1 ∧ s.fill.val < 128 then 1 else 0

/-- Derived from rules R134, R145, R151 and R156: no valid page becomes invalid but the one the least recently used frame
holds, and that only by a page fault once all 128 frames have been handed out; and an eviction writes no TLB slot but the
one TRANSLATE installs into. -/
def Obligations.OnlyAnEvictionInvalidatesAPage : Prop :=
  ∀ (i : Instr) (s t : State) (p : PageNo) (f : FrameNo), exec i s = .next t → s.pt[p] = some f →
    t.pt[p] = some f ∨
      (t.pt[p] = none ∧ s.fill.val = 128 ∧ s.resident[peekLeast s.rlF] = some p ∧
        t.stat.pageFaults = s.stat.pageFaults + 1 ∧ ∀ k : SlotNo, k ≠ peekLeast s.rlT → t.tlb[k] = s.tlb[k])

/-- Derived from rules R134, R136 and R137: a command changes a TLB slot only by installing the page of a TRANSLATE that
missed, in the least recently used slot; so a mapping stays until its slot is the victim. -/
def Obligations.TlbMappingsPersistUntilOverwritten : Prop :=
  ∀ (i : Instr) (s t : State) (k : SlotNo), exec i s = .next t → t.tlb[k] ≠ s.tlb[k] →
    k = peekLeast s.rlT ∧ ∃ (p : PageNo) (o : Offset) (isWrite : Bool),
      i = .translate (p.val * 256 + o.val) isWrite ∧ (∀ j : SlotNo, s.tlb[j].page ≠ some p) ∧ t.tlb[k].page = some p

/-- Rule R45, over steps: FAULT is set only by a failed page fill, with that fill's page, and once set no step but a reset
changes it. -/
def Obligations.FaultRegisterIsSticky : Prop :=
  ∀ (s t : State), step s = .next t → s.inbox.head? ≠ some .reset →
    (∀ r, s.fault = some r → t.fault = some r) ∧
    (s.fault = none → t.fault ≠ none →
      ∃ p : PageNo, t.fault = some ⟨.backingStoreIOError, p⟩ ∧ t.response = some (.errBackingStoreIO p))

/-- Rule R194: a command word gets one response, and the first of the five checks that applies decides it: the word is
illegal; FAULT is set; the record is malformed; the address is out of range; the fill that the page needs fails
(`FillFails`). Where none applies a TRANSLATE answers TRANSLATED. Where one of the first four applies, or the command is
REPORT, nothing but the response and the host's queues changes. -/
def Obligations.ErrorPriority : Prop :=
  ∀ (s t : State) (w : Word64) (rest : List HostInput), s.inbox = .word w :: rest → step s = .next t →
    (∃ ws, t.sent = s.sent ++ [.words ws]) ∧
    match decode w with
    | .illegal _ => t = { s with inbox := rest, response := some .errIllegalCommand, sent := t.sent }
    | .command .report => ∃ a b c d e, t.response = some (.reported a b c d e) ∧
        t = { s with inbox := rest, response := t.response, sent := t.sent }
    | .command .translateMalformed =>
      t = { s with
        inbox := rest
        response := some (match s.fault with | some r => .errFaulted r.page | none => .errMalformedRecord)
        sent := t.sent }
    | .command (.translate addr _) =>
      match s.fault with
      | some r => t = { s with inbox := rest, response := some (.errFaulted r.page), sent := t.sent }
      | none =>
        if 65535 < addr then
          t = { s with inbox := rest, response := some (.errAddressOutOfRange addr), sent := t.sent }
        else ∀ p : PageNo, p.val = addr / 256 →
          (FillFails p s → t.response = some (.errBackingStoreIO p)) ∧
          (¬ FillFails p s → ∃ pa v, t.response = some (.translated pa v))

/-! ### Steps -/

/-- Derived from rules R13, R85, R94, R97 and R99: a step on a command word performs the command the word decodes to, as
`exec` says, and replies with the response's words; on an abstract command it replies with the response itself. (How a
reply is delivered is the model's choice, log 13.) -/
def Obligations.StepRunsTheDecodedCommand : Prop :=
  ∀ (s : State) (rest : List HostInput) (i : Instr),
    (∀ w : Word64, s.inbox = .word w :: rest → decode w = .command i →
      (∀ (t : State) (r : Resp) (ws : List Word64), exec i { s with inbox := rest } = .next t → t.response = some r →
        r.pack = some ws → step s = .next { t with sent := t.sent ++ [.words ws] }) ∧
      (∀ e, exec i { s with inbox := rest } = .fault e → step s = .fault e)) ∧
    (s.inbox = .command i :: rest →
      (∀ (t : State) (r : Resp), exec i { s with inbox := rest } = .next t → t.response = some r →
        step s = .next { t with sent := t.sent ++ [.response r] }) ∧
      (∀ e, exec i { s with inbox := rest } = .fault e → step s = .fault e))

/-- Rule R172: an illegal word is answered with ERR_ILLEGAL_COMMAND and changes no state, whether or not FAULT is set. -/
def Obligations.IllegalWordsAreAnsweredAndChangeNothing : Prop :=
  ∀ (s : State) (w v : Word64) (rest : List HostInput), s.inbox = .word w :: rest → decode w = .illegal v →
    step s = .next { s with
      inbox := rest
      response := some .errIllegalCommand
      sent := s.sent ++ [.words [0xB000000000000000]] }

/-- Rule R215: a reset, asserted between two commands, puts every piece of the block's state into its reset value; and no
other step clears FAULT, lowers a counter, or makes a slot of the TLB EMPTY. The two kinds of value the rule leaves
unspecified, the frame fields and the frames' bytes, are claimed nothing of. -/
def Obligations.ResetPutsEveryPieceOfStateIntoItsResetValue : Prop :=
  (∀ (s : State) (rest : List HostInput), s.inbox = .reset :: rest →
    ∃ t, step s = .next t ∧ (∀ k : SlotNo, t.tlb[k].page = none) ∧ t.rlT = s.tlbSeed ∧
      (∀ p : PageNo, t.pt[p] = none) ∧ (∀ f : FrameNo, t.resident[f] = none) ∧ t.fill = 0 ∧ t.rlF = s.frameSeed ∧
      t.stat = ⟨0, 0, 0⟩ ∧ t.fault = none) ∧
  (∀ s t : State, step s = .next t → s.inbox.head? ≠ some .reset →
    (s.fault ≠ none → t.fault = s.fault) ∧ s.stat.translated ≤ t.stat.translated ∧
    s.stat.pageFaults ≤ t.stat.pageFaults ∧ s.stat.tlbHits ≤ t.stat.tlbHits ∧
    (∀ k : SlotNo, s.tlb[k].page ≠ none → t.tlb[k].page ≠ none))

/-- Rule R33's reset values, of the state `State.reset`; the two seeds are its parameters. -/
def Obligations.ResetStateHoldsTheResetValues : Prop :=
  (∀ k : SlotNo, State.reset.tlb[k].page = none) ∧ State.reset.rlT = State.reset.tlbSeed ∧
    (∀ p : PageNo, State.reset.pt[p] = none) ∧ (∀ f : FrameNo, State.reset.resident[f] = none) ∧
    State.reset.fill = 0 ∧ State.reset.rlF = State.reset.frameSeed ∧ State.reset.stat = ⟨0, 0, 0⟩ ∧
    State.reset.fault = none

/-- Derived from rules R96, R99 and R175: a command, word or abstract, that a step performs gets exactly one reply, after
all earlier ones; a reset and an attached store get none; and the input is taken from the queue. -/
def Obligations.OneReplyPerCommandInOrder : Prop :=
  ∀ (s t : State), step s = .next t →
    (match s.inbox.head? with
      | some (.word _) => ∃ ws, t.sent = s.sent ++ [.words ws]
      | some (.command _) => ∃ r, t.sent = s.sent ++ [.response r]
      | _ => t.sent = s.sent) ∧
    t.inbox = s.inbox.tail

/-- Derived from rule R98 and decision D23: a step refuses a REPORT word exactly when a counter is 2^64 or more. -/
def Obligations.OnlyUnpackableReportsAreRefused : Prop :=
  ∀ s : State, step s = .refused .reportCounterNotPackable ↔
    (∃ (w : Word64) (rest : List HostInput), s.inbox = .word w :: rest ∧ decode w = .command .report) ∧
      (2 ^ 64 ≤ s.stat.translated ∨ 2 ^ 64 ≤ s.stat.pageFaults ∨ 2 ^ 64 ≤ s.stat.tlbHits)

/-- Derived from rules R64, R219 and R226; that a store is taken while the fill count is 0 is the model's reading, log 9. -/
def Obligations.AStoreIsAttachedOnlyBeforeTheFirstFill : Prop :=
  ∀ (s : State) (store : BackingStore) (rest : List HostInput), s.inbox = .attach store :: rest →
    (s.fill.val = 0 → step s = .next { s with inbox := rest, bs := store }) ∧
    (s.fill.val ≠ 0 → step s = .refused .backingStoreChangedDuringRun)

/-- Derived from rules R36, R43 and R64: no step changes a seed or the device's draws, and none but an attached store
changes the backing store. -/
def Obligations.ParametersStayFixed : Prop :=
  ∀ (s t : State), step s = .next t →
    t.tlbSeed = s.tlbSeed ∧ t.frameSeed = s.frameSeed ∧ t.draws = s.draws ∧
    ((∀ store, s.inbox.head? ≠ some (.attach store)) → t.bs = s.bs)

/-- Derived from rule R229: if every read of the device returns, the machine never blocks. -/
def Obligations.TheBlockNeverHangsIfReadsReturn : Prop :=
  ∀ (s : State) (e : Machine.Fault), ReadsReturn s → step s ≠ .fault e

/-! ### Invariants and headline results -/

/-- The invariant holds right after reset. It rests on no chosen value but that the seeds are permutations. -/
def Obligations.ResetMeetsTheInvariant : Prop := Inv State.reset

/-- Derived from rules R48, R115, R139 to R141, R146, R156, R158 and R171: every step keeps the invariant, whatever the
host sends and however the device answers. -/
def Obligations.EveryStepKeepsTheInvariant : Prop :=
  ∀ s t : State, Inv s → step s = .next t → Inv t

/-- Rule R74, from every state that meets the invariant: a successful TRANSLATE of va answers with the backing store's byte
at va; the physical address has va's offset, and the page table maps va's page to its frame. -/
def Obligations.TranslationsReturnTheBackingStoresBytes : Prop :=
  ∀ (s t : State) (va : Nat) (isWrite : Bool) (pa : PAddr) (v : Int), Inv s → s.fault = none →
    exec (.translate va isWrite) s = .next t → t.response = some (.translated pa v) →
    v = sext8 (s.bs.byteAt va) ∧ pa.val &&& 0xFF = va &&& 0xFF ∧
      ∃ (p : PageNo) (f : FrameNo), p.val = va >>> 8 ∧ f.val = pa.val >>> 8 ∧ t.pt[p] = some f

/-- Derived from rules R74, R165 and R229: in a fault-free block with a backing store of 65536 bytes or more whose next read
succeeds, every address in range is translated, to the byte the store holds there. -/
def Obligations.EveryAddressInRangeIsTranslated : Prop :=
  ∀ (s : State) (va : Nat) (isWrite : Bool), Inv s → s.fault = none → va ≤ 65535 → bsMin ≤ s.bs.size →
    nextDraw s = .answers →
    ∃ t pa, exec (.translate va isWrite) s = .next t ∧ t.fault = none ∧
      t.response = some (.translated pa (sext8 (s.bs.byteAt va)))

/-- Derived from rules R116, R131, R137 and R165: in a fault-free block, right after a TRANSLATE of a page its slot holds
it, with the frame the answer came from, as the most recently used slot; LOOKUP finds it there. -/
def Obligations.ATranslatedPageIsTheMostRecentSlot : Prop :=
  ∀ (s t : State) (p : PageNo) (o : Offset) (isWrite : Bool) (pa : PAddr) (v : Int), Inv s →
    exec (.translate (p.val * 256 + o.val) isWrite) s = .next t → t.response = some (.translated pa v) →
    ∃ k : SlotNo, (tlbLookup p t).1 = some k ∧ (frameAt k t).val = pa.val / 256 ∧ t.rlT.toList.getLast? = some k

/-- Derived from rules R141 and R159: in a fault-free block whose frames are all handed out, the eviction victim holds a
valid page, and no TLB slot holds that page or that frame; so the missing TLB invalidation (rule R134) is never seen. -/
def Obligations.EvictionVictimsAreInNoTlbSlot : Prop :=
  ∀ s : State, Inv s → s.fault = none → s.fill.val = 128 →
    ∃ old : PageNo, s.resident[peekLeast s.rlF] = some old ∧ s.pt[old] = some (peekLeast s.rlF) ∧
      ∀ k : SlotNo, s.tlb[k].page ≠ some old ∧ (s.tlb[k].page.isSome → s.tlb[k].frame ≠ peekLeast s.rlF)

/-- Derived from rule R119, and more than it: two blocks that differ only in their seeds, given the same inputs, backing
store and draws, stop alike or go on with the same replies, the same page table, frame memory, resident pages, fill count,
counters and fault; and the slot that the one takes k-th in its seed order holds what the one the other takes k-th holds.
The rule speaks of runs in which FAULT stays none and of memory on filled frames. That faulted runs agree too, with all of
frame memory, rests on the model's choice that a failed fill leaves free bytes indexed by read and offset (log 5); the
spec leaves those bytes unspecified (rules R72, R153). -/
def Obligations.ResponsesDoNotDependOnTheSeeds : Prop :=
  ∀ (seedT seedT' : Order tlbSlots) (seedF seedF' : Order numFrames) (store : BackingStore) (draws : List Draw)
    (inputs : List HostInput) (n : Nat), OrderWf seedT → OrderWf seedT' → OrderWf seedF → OrderWf seedF' →
    match core.run n (coldBlock seedT seedF store draws inputs), core.run n (coldBlock seedT' seedF' store draws inputs) with
    | .next s, .next t =>
      t.sent = s.sent ∧ t.response = s.response ∧ t.pt = s.pt ∧ t.mem = s.mem ∧ t.resident = s.resident ∧
        t.fill = s.fill ∧ t.stat = s.stat ∧ t.fault = s.fault ∧
        ∀ k : SlotNo, t.tlb[seedT'[k]].page = s.tlb[seedT[k]].page ∧
          (s.tlb[seedT[k]].page.isSome → t.tlb[seedT'[k]].frame = s.tlb[seedT[k]].frame)
    | .fault e, .fault e' => e = e'
    | .refused e, .refused e' => e = e'
    | _, _ => False
end

