-- ==== Sys2Proof/Laws/State.lean ====
section
/-! SUPPORT. What each named update of the state leaves in each field: one lemma a field, true by unfolding. -/

namespace Sys2Proof.Machine

variable (s : State)

/-! ### respond -/

@[simp] theorem respond_tlb (r : Resp) : (respond r s).tlb = s.tlb := rfl
@[simp] theorem respond_rlT (r : Resp) : (respond r s).rlT = s.rlT := rfl
@[simp] theorem respond_pt (r : Resp) : (respond r s).pt = s.pt := rfl
@[simp] theorem respond_mem (r : Resp) : (respond r s).mem = s.mem := rfl
@[simp] theorem respond_resident (r : Resp) : (respond r s).resident = s.resident := rfl
@[simp] theorem respond_fill (r : Resp) : (respond r s).fill = s.fill := rfl
@[simp] theorem respond_rlF (r : Resp) : (respond r s).rlF = s.rlF := rfl
@[simp] theorem respond_stat (r : Resp) : (respond r s).stat = s.stat := rfl
@[simp] theorem respond_fault (r : Resp) : (respond r s).fault = s.fault := rfl
@[simp] theorem respond_tlbSeed (r : Resp) : (respond r s).tlbSeed = s.tlbSeed := rfl
@[simp] theorem respond_frameSeed (r : Resp) : (respond r s).frameSeed = s.frameSeed := rfl
@[simp] theorem respond_bs (r : Resp) : (respond r s).bs = s.bs := rfl
@[simp] theorem respond_draws (r : Resp) : (respond r s).draws = s.draws := rfl
@[simp] theorem respond_reads (r : Resp) : (respond r s).reads = s.reads := rfl
@[simp] theorem respond_resets (r : Resp) : (respond r s).resets = s.resets := rfl
@[simp] theorem respond_inbox (r : Resp) : (respond r s).inbox = s.inbox := rfl
@[simp] theorem respond_response (r : Resp) : (respond r s).response = some r := rfl
@[simp] theorem respond_sent (r : Resp) : (respond r s).sent = s.sent := rfl

/-! ### post -/

@[simp] theorem post_tlb (r : Reply) : (post r s).tlb = s.tlb := rfl
@[simp] theorem post_rlT (r : Reply) : (post r s).rlT = s.rlT := rfl
@[simp] theorem post_pt (r : Reply) : (post r s).pt = s.pt := rfl
@[simp] theorem post_mem (r : Reply) : (post r s).mem = s.mem := rfl
@[simp] theorem post_resident (r : Reply) : (post r s).resident = s.resident := rfl
@[simp] theorem post_fill (r : Reply) : (post r s).fill = s.fill := rfl
@[simp] theorem post_rlF (r : Reply) : (post r s).rlF = s.rlF := rfl
@[simp] theorem post_stat (r : Reply) : (post r s).stat = s.stat := rfl
@[simp] theorem post_fault (r : Reply) : (post r s).fault = s.fault := rfl
@[simp] theorem post_tlbSeed (r : Reply) : (post r s).tlbSeed = s.tlbSeed := rfl
@[simp] theorem post_frameSeed (r : Reply) : (post r s).frameSeed = s.frameSeed := rfl
@[simp] theorem post_bs (r : Reply) : (post r s).bs = s.bs := rfl
@[simp] theorem post_draws (r : Reply) : (post r s).draws = s.draws := rfl
@[simp] theorem post_reads (r : Reply) : (post r s).reads = s.reads := rfl
@[simp] theorem post_resets (r : Reply) : (post r s).resets = s.resets := rfl
@[simp] theorem post_inbox (r : Reply) : (post r s).inbox = s.inbox := rfl
@[simp] theorem post_response (r : Reply) : (post r s).response = s.response := rfl
@[simp] theorem post_sent (r : Reply) : (post r s).sent = s.sent ++ [r] := rfl

/-! ### countRead -/

@[simp] theorem countRead_tlb : (countRead s).tlb = s.tlb := rfl
@[simp] theorem countRead_rlT : (countRead s).rlT = s.rlT := rfl
@[simp] theorem countRead_pt : (countRead s).pt = s.pt := rfl
@[simp] theorem countRead_mem : (countRead s).mem = s.mem := rfl
@[simp] theorem countRead_resident : (countRead s).resident = s.resident := rfl
@[simp] theorem countRead_fill : (countRead s).fill = s.fill := rfl
@[simp] theorem countRead_rlF : (countRead s).rlF = s.rlF := rfl
@[simp] theorem countRead_stat : (countRead s).stat = s.stat := rfl
@[simp] theorem countRead_fault : (countRead s).fault = s.fault := rfl
@[simp] theorem countRead_tlbSeed : (countRead s).tlbSeed = s.tlbSeed := rfl
@[simp] theorem countRead_frameSeed : (countRead s).frameSeed = s.frameSeed := rfl
@[simp] theorem countRead_bs : (countRead s).bs = s.bs := rfl
@[simp] theorem countRead_draws : (countRead s).draws = s.draws := rfl
@[simp] theorem countRead_reads : (countRead s).reads = s.reads + 1 := rfl
@[simp] theorem countRead_resets : (countRead s).resets = s.resets := rfl
@[simp] theorem countRead_inbox : (countRead s).inbox = s.inbox := rfl
@[simp] theorem countRead_response : (countRead s).response = s.response := rfl
@[simp] theorem countRead_sent : (countRead s).sent = s.sent := rfl

/-! ### memWrite -/

@[simp] theorem memWrite_tlb (pa : Nat) (bytes : List Byte) : (memWrite pa bytes s).tlb = s.tlb := rfl
@[simp] theorem memWrite_rlT (pa : Nat) (bytes : List Byte) : (memWrite pa bytes s).rlT = s.rlT := rfl
@[simp] theorem memWrite_pt (pa : Nat) (bytes : List Byte) : (memWrite pa bytes s).pt = s.pt := rfl
@[simp] theorem memWrite_mem (pa : Nat) (bytes : List Byte) : (memWrite pa bytes s).mem = s.mem.write pa bytes := rfl
@[simp] theorem memWrite_resident (pa : Nat) (bytes : List Byte) : (memWrite pa bytes s).resident = s.resident := rfl
@[simp] theorem memWrite_fill (pa : Nat) (bytes : List Byte) : (memWrite pa bytes s).fill = s.fill := rfl
@[simp] theorem memWrite_rlF (pa : Nat) (bytes : List Byte) : (memWrite pa bytes s).rlF = s.rlF := rfl
@[simp] theorem memWrite_stat (pa : Nat) (bytes : List Byte) : (memWrite pa bytes s).stat = s.stat := rfl
@[simp] theorem memWrite_fault (pa : Nat) (bytes : List Byte) : (memWrite pa bytes s).fault = s.fault := rfl
@[simp] theorem memWrite_tlbSeed (pa : Nat) (bytes : List Byte) : (memWrite pa bytes s).tlbSeed = s.tlbSeed := rfl
@[simp] theorem memWrite_frameSeed (pa : Nat) (bytes : List Byte) : (memWrite pa bytes s).frameSeed = s.frameSeed := rfl
@[simp] theorem memWrite_bs (pa : Nat) (bytes : List Byte) : (memWrite pa bytes s).bs = s.bs := rfl
@[simp] theorem memWrite_draws (pa : Nat) (bytes : List Byte) : (memWrite pa bytes s).draws = s.draws := rfl
@[simp] theorem memWrite_reads (pa : Nat) (bytes : List Byte) : (memWrite pa bytes s).reads = s.reads := rfl
@[simp] theorem memWrite_resets (pa : Nat) (bytes : List Byte) : (memWrite pa bytes s).resets = s.resets := rfl
@[simp] theorem memWrite_inbox (pa : Nat) (bytes : List Byte) : (memWrite pa bytes s).inbox = s.inbox := rfl
@[simp] theorem memWrite_response (pa : Nat) (bytes : List Byte) : (memWrite pa bytes s).response = s.response := rfl
@[simp] theorem memWrite_sent (pa : Nat) (bytes : List Byte) : (memWrite pa bytes s).sent = s.sent := rfl

/-! ### setFault -/

@[simp] theorem setFault_tlb (p : PageNo) : (setFault p s).tlb = s.tlb := rfl
@[simp] theorem setFault_rlT (p : PageNo) : (setFault p s).rlT = s.rlT := rfl
@[simp] theorem setFault_pt (p : PageNo) : (setFault p s).pt = s.pt := rfl
@[simp] theorem setFault_mem (p : PageNo) : (setFault p s).mem = s.mem := rfl
@[simp] theorem setFault_resident (p : PageNo) : (setFault p s).resident = s.resident := rfl
@[simp] theorem setFault_fill (p : PageNo) : (setFault p s).fill = s.fill := rfl
@[simp] theorem setFault_rlF (p : PageNo) : (setFault p s).rlF = s.rlF := rfl
@[simp] theorem setFault_stat (p : PageNo) : (setFault p s).stat = s.stat := rfl
@[simp] theorem setFault_fault (p : PageNo) : (setFault p s).fault = some ⟨.backingStoreIOError, p⟩ := rfl
@[simp] theorem setFault_tlbSeed (p : PageNo) : (setFault p s).tlbSeed = s.tlbSeed := rfl
@[simp] theorem setFault_frameSeed (p : PageNo) : (setFault p s).frameSeed = s.frameSeed := rfl
@[simp] theorem setFault_bs (p : PageNo) : (setFault p s).bs = s.bs := rfl
@[simp] theorem setFault_draws (p : PageNo) : (setFault p s).draws = s.draws := rfl
@[simp] theorem setFault_reads (p : PageNo) : (setFault p s).reads = s.reads := rfl
@[simp] theorem setFault_resets (p : PageNo) : (setFault p s).resets = s.resets := rfl
@[simp] theorem setFault_inbox (p : PageNo) : (setFault p s).inbox = s.inbox := rfl
@[simp] theorem setFault_response (p : PageNo) : (setFault p s).response = s.response := rfl
@[simp] theorem setFault_sent (p : PageNo) : (setFault p s).sent = s.sent := rfl

/-! ### countTlbHit -/

@[simp] theorem countTlbHit_tlb : (countTlbHit s).tlb = s.tlb := rfl
@[simp] theorem countTlbHit_rlT : (countTlbHit s).rlT = s.rlT := rfl
@[simp] theorem countTlbHit_pt : (countTlbHit s).pt = s.pt := rfl
@[simp] theorem countTlbHit_mem : (countTlbHit s).mem = s.mem := rfl
@[simp] theorem countTlbHit_resident : (countTlbHit s).resident = s.resident := rfl
@[simp] theorem countTlbHit_fill : (countTlbHit s).fill = s.fill := rfl
@[simp] theorem countTlbHit_rlF : (countTlbHit s).rlF = s.rlF := rfl
@[simp] theorem countTlbHit_stat : (countTlbHit s).stat = { s.stat with tlbHits := s.stat.tlbHits + 1 } := rfl
@[simp] theorem countTlbHit_fault : (countTlbHit s).fault = s.fault := rfl
@[simp] theorem countTlbHit_tlbSeed : (countTlbHit s).tlbSeed = s.tlbSeed := rfl
@[simp] theorem countTlbHit_frameSeed : (countTlbHit s).frameSeed = s.frameSeed := rfl
@[simp] theorem countTlbHit_bs : (countTlbHit s).bs = s.bs := rfl
@[simp] theorem countTlbHit_draws : (countTlbHit s).draws = s.draws := rfl
@[simp] theorem countTlbHit_reads : (countTlbHit s).reads = s.reads := rfl
@[simp] theorem countTlbHit_resets : (countTlbHit s).resets = s.resets := rfl
@[simp] theorem countTlbHit_inbox : (countTlbHit s).inbox = s.inbox := rfl
@[simp] theorem countTlbHit_response : (countTlbHit s).response = s.response := rfl
@[simp] theorem countTlbHit_sent : (countTlbHit s).sent = s.sent := rfl

/-! ### countPageFault -/

@[simp] theorem countPageFault_tlb : (countPageFault s).tlb = s.tlb := rfl
@[simp] theorem countPageFault_rlT : (countPageFault s).rlT = s.rlT := rfl
@[simp] theorem countPageFault_pt : (countPageFault s).pt = s.pt := rfl
@[simp] theorem countPageFault_mem : (countPageFault s).mem = s.mem := rfl
@[simp] theorem countPageFault_resident : (countPageFault s).resident = s.resident := rfl
@[simp] theorem countPageFault_fill : (countPageFault s).fill = s.fill := rfl
@[simp] theorem countPageFault_rlF : (countPageFault s).rlF = s.rlF := rfl
@[simp] theorem countPageFault_stat : (countPageFault s).stat = { s.stat with pageFaults := s.stat.pageFaults + 1 } := rfl
@[simp] theorem countPageFault_fault : (countPageFault s).fault = s.fault := rfl
@[simp] theorem countPageFault_tlbSeed : (countPageFault s).tlbSeed = s.tlbSeed := rfl
@[simp] theorem countPageFault_frameSeed : (countPageFault s).frameSeed = s.frameSeed := rfl
@[simp] theorem countPageFault_bs : (countPageFault s).bs = s.bs := rfl
@[simp] theorem countPageFault_draws : (countPageFault s).draws = s.draws := rfl
@[simp] theorem countPageFault_reads : (countPageFault s).reads = s.reads := rfl
@[simp] theorem countPageFault_resets : (countPageFault s).resets = s.resets := rfl
@[simp] theorem countPageFault_inbox : (countPageFault s).inbox = s.inbox := rfl
@[simp] theorem countPageFault_response : (countPageFault s).response = s.response := rfl
@[simp] theorem countPageFault_sent : (countPageFault s).sent = s.sent := rfl

/-! ### countTranslated -/

@[simp] theorem countTranslated_tlb : (countTranslated s).tlb = s.tlb := rfl
@[simp] theorem countTranslated_rlT : (countTranslated s).rlT = s.rlT := rfl
@[simp] theorem countTranslated_pt : (countTranslated s).pt = s.pt := rfl
@[simp] theorem countTranslated_mem : (countTranslated s).mem = s.mem := rfl
@[simp] theorem countTranslated_resident : (countTranslated s).resident = s.resident := rfl
@[simp] theorem countTranslated_fill : (countTranslated s).fill = s.fill := rfl
@[simp] theorem countTranslated_rlF : (countTranslated s).rlF = s.rlF := rfl
@[simp] theorem countTranslated_stat : (countTranslated s).stat = { s.stat with translated := s.stat.translated + 1 } := rfl
@[simp] theorem countTranslated_fault : (countTranslated s).fault = s.fault := rfl
@[simp] theorem countTranslated_tlbSeed : (countTranslated s).tlbSeed = s.tlbSeed := rfl
@[simp] theorem countTranslated_frameSeed : (countTranslated s).frameSeed = s.frameSeed := rfl
@[simp] theorem countTranslated_bs : (countTranslated s).bs = s.bs := rfl
@[simp] theorem countTranslated_draws : (countTranslated s).draws = s.draws := rfl
@[simp] theorem countTranslated_reads : (countTranslated s).reads = s.reads := rfl
@[simp] theorem countTranslated_resets : (countTranslated s).resets = s.resets := rfl
@[simp] theorem countTranslated_inbox : (countTranslated s).inbox = s.inbox := rfl
@[simp] theorem countTranslated_response : (countTranslated s).response = s.response := rfl
@[simp] theorem countTranslated_sent : (countTranslated s).sent = s.sent := rfl

/-! ### install -/

@[simp] theorem install_tlb (k : SlotNo) (p : PageNo) (f : FrameNo) : (install k p f s).tlb = s.tlb.set k ⟨some p, f⟩ := rfl
@[simp] theorem install_rlT (k : SlotNo) (p : PageNo) (f : FrameNo) : (install k p f s).rlT = s.rlT := rfl
@[simp] theorem install_pt (k : SlotNo) (p : PageNo) (f : FrameNo) : (install k p f s).pt = s.pt := rfl
@[simp] theorem install_mem (k : SlotNo) (p : PageNo) (f : FrameNo) : (install k p f s).mem = s.mem := rfl
@[simp] theorem install_resident (k : SlotNo) (p : PageNo) (f : FrameNo) : (install k p f s).resident = s.resident := rfl
@[simp] theorem install_fill (k : SlotNo) (p : PageNo) (f : FrameNo) : (install k p f s).fill = s.fill := rfl
@[simp] theorem install_rlF (k : SlotNo) (p : PageNo) (f : FrameNo) : (install k p f s).rlF = s.rlF := rfl
@[simp] theorem install_stat (k : SlotNo) (p : PageNo) (f : FrameNo) : (install k p f s).stat = s.stat := rfl
@[simp] theorem install_fault (k : SlotNo) (p : PageNo) (f : FrameNo) : (install k p f s).fault = s.fault := rfl
@[simp] theorem install_tlbSeed (k : SlotNo) (p : PageNo) (f : FrameNo) : (install k p f s).tlbSeed = s.tlbSeed := rfl
@[simp] theorem install_frameSeed (k : SlotNo) (p : PageNo) (f : FrameNo) : (install k p f s).frameSeed = s.frameSeed := rfl
@[simp] theorem install_bs (k : SlotNo) (p : PageNo) (f : FrameNo) : (install k p f s).bs = s.bs := rfl
@[simp] theorem install_draws (k : SlotNo) (p : PageNo) (f : FrameNo) : (install k p f s).draws = s.draws := rfl
@[simp] theorem install_reads (k : SlotNo) (p : PageNo) (f : FrameNo) : (install k p f s).reads = s.reads := rfl
@[simp] theorem install_resets (k : SlotNo) (p : PageNo) (f : FrameNo) : (install k p f s).resets = s.resets := rfl
@[simp] theorem install_inbox (k : SlotNo) (p : PageNo) (f : FrameNo) : (install k p f s).inbox = s.inbox := rfl
@[simp] theorem install_response (k : SlotNo) (p : PageNo) (f : FrameNo) : (install k p f s).response = s.response := rfl
@[simp] theorem install_sent (k : SlotNo) (p : PageNo) (f : FrameNo) : (install k p f s).sent = s.sent := rfl

/-! ### promoteSlot -/

@[simp] theorem promoteSlot_tlb (k : SlotNo) : (promoteSlot k s).tlb = s.tlb := rfl
@[simp] theorem promoteSlot_rlT (k : SlotNo) : (promoteSlot k s).rlT = promote s.rlT k := rfl
@[simp] theorem promoteSlot_pt (k : SlotNo) : (promoteSlot k s).pt = s.pt := rfl
@[simp] theorem promoteSlot_mem (k : SlotNo) : (promoteSlot k s).mem = s.mem := rfl
@[simp] theorem promoteSlot_resident (k : SlotNo) : (promoteSlot k s).resident = s.resident := rfl
@[simp] theorem promoteSlot_fill (k : SlotNo) : (promoteSlot k s).fill = s.fill := rfl
@[simp] theorem promoteSlot_rlF (k : SlotNo) : (promoteSlot k s).rlF = s.rlF := rfl
@[simp] theorem promoteSlot_stat (k : SlotNo) : (promoteSlot k s).stat = s.stat := rfl
@[simp] theorem promoteSlot_fault (k : SlotNo) : (promoteSlot k s).fault = s.fault := rfl
@[simp] theorem promoteSlot_tlbSeed (k : SlotNo) : (promoteSlot k s).tlbSeed = s.tlbSeed := rfl
@[simp] theorem promoteSlot_frameSeed (k : SlotNo) : (promoteSlot k s).frameSeed = s.frameSeed := rfl
@[simp] theorem promoteSlot_bs (k : SlotNo) : (promoteSlot k s).bs = s.bs := rfl
@[simp] theorem promoteSlot_draws (k : SlotNo) : (promoteSlot k s).draws = s.draws := rfl
@[simp] theorem promoteSlot_reads (k : SlotNo) : (promoteSlot k s).reads = s.reads := rfl
@[simp] theorem promoteSlot_resets (k : SlotNo) : (promoteSlot k s).resets = s.resets := rfl
@[simp] theorem promoteSlot_inbox (k : SlotNo) : (promoteSlot k s).inbox = s.inbox := rfl
@[simp] theorem promoteSlot_response (k : SlotNo) : (promoteSlot k s).response = s.response := rfl
@[simp] theorem promoteSlot_sent (k : SlotNo) : (promoteSlot k s).sent = s.sent := rfl

/-! ### markResident -/

@[simp] theorem markResident_tlb (p : PageNo) (f : FrameNo) : (markResident p f s).tlb = s.tlb := rfl
@[simp] theorem markResident_rlT (p : PageNo) (f : FrameNo) : (markResident p f s).rlT = s.rlT := rfl
@[simp] theorem markResident_pt (p : PageNo) (f : FrameNo) : (markResident p f s).pt = s.pt.set p (some f) := rfl
@[simp] theorem markResident_mem (p : PageNo) (f : FrameNo) : (markResident p f s).mem = s.mem := rfl
@[simp] theorem markResident_resident (p : PageNo) (f : FrameNo) : (markResident p f s).resident = s.resident := rfl
@[simp] theorem markResident_fill (p : PageNo) (f : FrameNo) : (markResident p f s).fill = s.fill := rfl
@[simp] theorem markResident_rlF (p : PageNo) (f : FrameNo) : (markResident p f s).rlF = s.rlF := rfl
@[simp] theorem markResident_stat (p : PageNo) (f : FrameNo) : (markResident p f s).stat = s.stat := rfl
@[simp] theorem markResident_fault (p : PageNo) (f : FrameNo) : (markResident p f s).fault = s.fault := rfl
@[simp] theorem markResident_tlbSeed (p : PageNo) (f : FrameNo) : (markResident p f s).tlbSeed = s.tlbSeed := rfl
@[simp] theorem markResident_frameSeed (p : PageNo) (f : FrameNo) : (markResident p f s).frameSeed = s.frameSeed := rfl
@[simp] theorem markResident_bs (p : PageNo) (f : FrameNo) : (markResident p f s).bs = s.bs := rfl
@[simp] theorem markResident_draws (p : PageNo) (f : FrameNo) : (markResident p f s).draws = s.draws := rfl
@[simp] theorem markResident_reads (p : PageNo) (f : FrameNo) : (markResident p f s).reads = s.reads := rfl
@[simp] theorem markResident_resets (p : PageNo) (f : FrameNo) : (markResident p f s).resets = s.resets := rfl
@[simp] theorem markResident_inbox (p : PageNo) (f : FrameNo) : (markResident p f s).inbox = s.inbox := rfl
@[simp] theorem markResident_response (p : PageNo) (f : FrameNo) : (markResident p f s).response = s.response := rfl
@[simp] theorem markResident_sent (p : PageNo) (f : FrameNo) : (markResident p f s).sent = s.sent := rfl

/-! ### invalidate -/

@[simp] theorem invalidate_tlb (p : PageNo) : (invalidate p s).tlb = s.tlb := rfl
@[simp] theorem invalidate_rlT (p : PageNo) : (invalidate p s).rlT = s.rlT := rfl
@[simp] theorem invalidate_pt (p : PageNo) : (invalidate p s).pt = s.pt.set p none := rfl
@[simp] theorem invalidate_mem (p : PageNo) : (invalidate p s).mem = s.mem := rfl
@[simp] theorem invalidate_resident (p : PageNo) : (invalidate p s).resident = s.resident := rfl
@[simp] theorem invalidate_fill (p : PageNo) : (invalidate p s).fill = s.fill := rfl
@[simp] theorem invalidate_rlF (p : PageNo) : (invalidate p s).rlF = s.rlF := rfl
@[simp] theorem invalidate_stat (p : PageNo) : (invalidate p s).stat = s.stat := rfl
@[simp] theorem invalidate_fault (p : PageNo) : (invalidate p s).fault = s.fault := rfl
@[simp] theorem invalidate_tlbSeed (p : PageNo) : (invalidate p s).tlbSeed = s.tlbSeed := rfl
@[simp] theorem invalidate_frameSeed (p : PageNo) : (invalidate p s).frameSeed = s.frameSeed := rfl
@[simp] theorem invalidate_bs (p : PageNo) : (invalidate p s).bs = s.bs := rfl
@[simp] theorem invalidate_draws (p : PageNo) : (invalidate p s).draws = s.draws := rfl
@[simp] theorem invalidate_reads (p : PageNo) : (invalidate p s).reads = s.reads := rfl
@[simp] theorem invalidate_resets (p : PageNo) : (invalidate p s).resets = s.resets := rfl
@[simp] theorem invalidate_inbox (p : PageNo) : (invalidate p s).inbox = s.inbox := rfl
@[simp] theorem invalidate_response (p : PageNo) : (invalidate p s).response = s.response := rfl
@[simp] theorem invalidate_sent (p : PageNo) : (invalidate p s).sent = s.sent := rfl

/-! ### setResident -/

@[simp] theorem setResident_tlb (f : FrameNo) (p : PageNo) : (setResident f p s).tlb = s.tlb := rfl
@[simp] theorem setResident_rlT (f : FrameNo) (p : PageNo) : (setResident f p s).rlT = s.rlT := rfl
@[simp] theorem setResident_pt (f : FrameNo) (p : PageNo) : (setResident f p s).pt = s.pt := rfl
@[simp] theorem setResident_mem (f : FrameNo) (p : PageNo) : (setResident f p s).mem = s.mem := rfl
@[simp] theorem setResident_resident (f : FrameNo) (p : PageNo) : (setResident f p s).resident = s.resident.set f (some p) := rfl
@[simp] theorem setResident_fill (f : FrameNo) (p : PageNo) : (setResident f p s).fill = s.fill := rfl
@[simp] theorem setResident_rlF (f : FrameNo) (p : PageNo) : (setResident f p s).rlF = s.rlF := rfl
@[simp] theorem setResident_stat (f : FrameNo) (p : PageNo) : (setResident f p s).stat = s.stat := rfl
@[simp] theorem setResident_fault (f : FrameNo) (p : PageNo) : (setResident f p s).fault = s.fault := rfl
@[simp] theorem setResident_tlbSeed (f : FrameNo) (p : PageNo) : (setResident f p s).tlbSeed = s.tlbSeed := rfl
@[simp] theorem setResident_frameSeed (f : FrameNo) (p : PageNo) : (setResident f p s).frameSeed = s.frameSeed := rfl
@[simp] theorem setResident_bs (f : FrameNo) (p : PageNo) : (setResident f p s).bs = s.bs := rfl
@[simp] theorem setResident_draws (f : FrameNo) (p : PageNo) : (setResident f p s).draws = s.draws := rfl
@[simp] theorem setResident_reads (f : FrameNo) (p : PageNo) : (setResident f p s).reads = s.reads := rfl
@[simp] theorem setResident_resets (f : FrameNo) (p : PageNo) : (setResident f p s).resets = s.resets := rfl
@[simp] theorem setResident_inbox (f : FrameNo) (p : PageNo) : (setResident f p s).inbox = s.inbox := rfl
@[simp] theorem setResident_response (f : FrameNo) (p : PageNo) : (setResident f p s).response = s.response := rfl
@[simp] theorem setResident_sent (f : FrameNo) (p : PageNo) : (setResident f p s).sent = s.sent := rfl

/-! ### promoteFrame -/

@[simp] theorem promoteFrame_tlb (f : FrameNo) : (promoteFrame f s).tlb = s.tlb := rfl
@[simp] theorem promoteFrame_rlT (f : FrameNo) : (promoteFrame f s).rlT = s.rlT := rfl
@[simp] theorem promoteFrame_pt (f : FrameNo) : (promoteFrame f s).pt = s.pt := rfl
@[simp] theorem promoteFrame_mem (f : FrameNo) : (promoteFrame f s).mem = s.mem := rfl
@[simp] theorem promoteFrame_resident (f : FrameNo) : (promoteFrame f s).resident = s.resident := rfl
@[simp] theorem promoteFrame_fill (f : FrameNo) : (promoteFrame f s).fill = s.fill := rfl
@[simp] theorem promoteFrame_rlF (f : FrameNo) : (promoteFrame f s).rlF = promote s.rlF f := rfl
@[simp] theorem promoteFrame_stat (f : FrameNo) : (promoteFrame f s).stat = s.stat := rfl
@[simp] theorem promoteFrame_fault (f : FrameNo) : (promoteFrame f s).fault = s.fault := rfl
@[simp] theorem promoteFrame_tlbSeed (f : FrameNo) : (promoteFrame f s).tlbSeed = s.tlbSeed := rfl
@[simp] theorem promoteFrame_frameSeed (f : FrameNo) : (promoteFrame f s).frameSeed = s.frameSeed := rfl
@[simp] theorem promoteFrame_bs (f : FrameNo) : (promoteFrame f s).bs = s.bs := rfl
@[simp] theorem promoteFrame_draws (f : FrameNo) : (promoteFrame f s).draws = s.draws := rfl
@[simp] theorem promoteFrame_reads (f : FrameNo) : (promoteFrame f s).reads = s.reads := rfl
@[simp] theorem promoteFrame_resets (f : FrameNo) : (promoteFrame f s).resets = s.resets := rfl
@[simp] theorem promoteFrame_inbox (f : FrameNo) : (promoteFrame f s).inbox = s.inbox := rfl
@[simp] theorem promoteFrame_response (f : FrameNo) : (promoteFrame f s).response = s.response := rfl
@[simp] theorem promoteFrame_sent (f : FrameNo) : (promoteFrame f s).sent = s.sent := rfl

/-! ### applyReset -/

@[simp] theorem applyReset_tlb : (applyReset s).tlb = emptyTlb (s.resets + 1) := rfl
@[simp] theorem applyReset_rlT : (applyReset s).rlT = s.tlbSeed := rfl
@[simp] theorem applyReset_pt : (applyReset s).pt = Vector.replicate numPages none := rfl
@[simp] theorem applyReset_mem : (applyReset s).mem = [] := rfl
@[simp] theorem applyReset_resident : (applyReset s).resident = Vector.replicate numFrames none := rfl
@[simp] theorem applyReset_fill : (applyReset s).fill = 0 := rfl
@[simp] theorem applyReset_rlF : (applyReset s).rlF = s.frameSeed := rfl
@[simp] theorem applyReset_stat : (applyReset s).stat = ⟨0, 0, 0⟩ := rfl
@[simp] theorem applyReset_fault : (applyReset s).fault = none := rfl
@[simp] theorem applyReset_tlbSeed : (applyReset s).tlbSeed = s.tlbSeed := rfl
@[simp] theorem applyReset_frameSeed : (applyReset s).frameSeed = s.frameSeed := rfl
@[simp] theorem applyReset_bs : (applyReset s).bs = s.bs := rfl
@[simp] theorem applyReset_draws : (applyReset s).draws = s.draws := rfl
@[simp] theorem applyReset_reads : (applyReset s).reads = s.reads := rfl
@[simp] theorem applyReset_resets : (applyReset s).resets = s.resets + 1 := rfl
@[simp] theorem applyReset_inbox : (applyReset s).inbox = s.inbox := rfl
@[simp] theorem applyReset_response : (applyReset s).response = none := rfl
@[simp] theorem applyReset_sent : (applyReset s).sent = s.sent := rfl

end Sys2Proof.Machine
end

