-- ==== Sys2Proof/Laws/Memory.lean ====
section
/-! SUPPORT. Frame memory: a read after a write, and that every operation keeps the canonical form. -/

namespace Sys2Proof.Machine

/-- Looking an address up in a list of cells: the first cell, or the rest. -/
theorem lookup_cell (a x : Nat) (b : Byte) (m : List Host.Cell) :
    List.lookup a ((x, b) :: m) = if a = x then some b else List.lookup a m := by
  by_cases h : a = x
  · simp [h]
  · rw [List.lookup_cons, beq_false_of_ne h, if_neg h]

/-- A list whose entries are filtered by address is looked up like the list itself, where the filter lets the address
through. -/
theorem lookup_filter_address (q : Nat → Bool) (m : List Host.Cell) (a : Nat) :
    List.lookup a (m.filter fun c => q c.1) = if q a then List.lookup a m else none := by
  induction m with
  | nil => simp
  | cons c m ih =>
    obtain ⟨x, b⟩ := c
    by_cases hx : a = x
    · subst hx
      cases hq : q a <;> simp [hq, ih]
    · cases hq : q x <;> simp [lookup_cell, hq, hx, ih]

/-- A run of bytes laid out from an address on is looked up by its index. -/
theorem lookup_run (bytes : List Byte) (pa a : Nat) :
    List.lookup a (bytes.mapIdx fun i b => (pa + i, b)) = if pa ≤ a then bytes[a - pa]? else none := by
  induction bytes generalizing pa with
  | nil => simp
  | cons b bytes ih =>
    have shift : (fun i (b : Byte) => (pa + (i + 1), b)) = fun i b => (pa + 1 + i, b) := by
      funext i b; congr 1; omega
    rw [List.mapIdx_cons, shift, lookup_cell, ih, Nat.add_zero]
    by_cases h : a = pa
    · subst h; simp
    · by_cases h' : pa + 1 ≤ a
      · have low : pa ≤ a := by omega
        rw [show a - pa = (a - (pa + 1)) + 1 by omega]
        simp [h, h', low]
      · have low : ¬ pa ≤ a := by omega
        simp [h, h', low]

/-- Reading after a write: the written bytes inside the run, the old contents outside it (rules R12, R68). -/
theorem Memory.read_write (m : Memory) (pa : Nat) (bytes : List Byte) (a : Nat) :
    (m.write pa bytes).read a =
      if pa ≤ a ∧ a < pa + bytes.length then bytes[a - pa]? else m.read a := by
  have below := lookup_filter_address (fun x => decide (x < pa)) m a
  have above := lookup_filter_address (fun x => decide (pa + bytes.length ≤ x)) m a
  simp only [Memory.write, Memory.read, List.lookup_append, below, above, lookup_run]
  by_cases h1 : a < pa
  · have : ¬ pa ≤ a := by omega
    have h2 : ¬ pa + bytes.length ≤ a := by omega
    simp [h1, this, h2]
  · have h2 : pa ≤ a := by omega
    by_cases h3 : a < pa + bytes.length
    · have h4 : ¬ pa + bytes.length ≤ a := by omega
      simp [h1, h2, h3, h4]
    · have h4 : pa + bytes.length ≤ a := by omega
      have h5 : bytes.length ≤ a - pa := by omega
      simp [h1, h2, h3, h4, List.getElem?_eq_none h5]

/-- Writing a run of bytes at addresses that exist keeps the canonical form. -/
theorem Memory.write_wf {m : Memory} (h : m.wf) {pa : Nat} {bytes : List Byte}
    (fits : pa + bytes.length ≤ pspace) : (m.write pa bytes).wf := by
  obtain ⟨rising, exist⟩ := h
  refine ⟨?_, ?_⟩
  · simp only [Memory.write, List.pairwise_append, List.mem_filter, List.mem_append, List.mem_mapIdx,
      decide_eq_true_eq]
    refine ⟨⟨rising.filter _, ?_, ?_⟩, rising.filter _, ?_⟩
    · rw [List.pairwise_iff_getElem]
      intro i j hi hj hij
      simpa using hij
    · rintro a ⟨-, ha⟩ b ⟨i, hi, rfl⟩
      show a.1 < pa + i
      omega
    · rintro a (⟨-, ha⟩ | ⟨i, hi, rfl⟩) b ⟨-, hb⟩
      · omega
      · show pa + i < b.1
        omega
  · intro c hc
    simp only [Memory.write, List.mem_append, List.mem_filter, List.mem_mapIdx] at hc
    rcases hc with (⟨hc, -⟩ | ⟨i, hi, rfl⟩) | ⟨hc, -⟩
    · exact exist c hc
    · show pa + i < pspace
      omega
    · exact exist c hc

/-- The memory right after reset is in canonical form. -/
theorem reset_memory_wf : State.reset.mem.wf := ⟨List.Pairwise.nil, fun _ h => nomatch h⟩

/-- A page of the backing store is 256 bytes. -/
@[simp] theorem BackingStore.pageAt_length (b : BackingStore) (off : Nat) : (b.pageAt off).length = pageSize := by
  simp [BackingStore.pageAt]

/-- Byte `o` of the page read at an offset (rule R66). -/
theorem BackingStore.pageAt_getElem? (b : BackingStore) (off o : Nat) (h : o < pageSize) :
    (b.pageAt off)[o]? = some (b.byteAt (off + o)) := by
  simp [BackingStore.pageAt, h]

/-- A failed read leaves 256 bytes. -/
@[simp] theorem failedFillBytes_length (k : Nat) : (failedFillBytes k).length = pageSize := by
  simp [failedFillBytes]

/-- A frame lies inside frame memory. -/
theorem frame_fits (f : FrameNo) : frameBase f + pageSize ≤ pspace := by
  have h : f.val < 128 := f.isLt
  show f.val * 256 + 256 ≤ 32768
  omega

/-- Every content of a backing store can be written down: the sparse form loses no store (log 8). -/
theorem BackingStore.represents (size : Nat) (content : Nat → Byte) :
    ∃ b : BackingStore, b.size = size ∧ ∀ i < size, b.byteAt i = content i := by
  refine ⟨⟨size, (List.range size).map fun i => (i, content i)⟩, rfl, fun i hi => ?_⟩
  have key : ∀ n : Nat, ∀ l : List Nat, n ∈ l → List.lookup n (l.map fun i => (i, content i)) = some (content n) := by
    intro n l hn
    induction l with
    | nil => simp at hn
    | cons a l ih =>
      rw [List.map_cons, lookup_cell]
      by_cases h : n = a
      · simp [h]
      · have later : n ∈ l := by simpa [h] using hn
        simp [h, ih later]
  simp [BackingStore.byteAt, key i (List.range size) (by simpa using hi)]

end Sys2Proof.Machine
end

