-- ==== Sys2Proof/Laws/RecencyList.lean ====
section
/-! SUPPORT. The Recency List: what a promotion does to an order that holds every index once (rules R112, R115). -/

namespace Sys2Proof.Machine

variable {n : Nat}

/-- An order without repetitions holds every index. -/
theorem OrderWf.mem {order : Order n} (h : OrderWf order) (i : Fin n) : i ∈ order.toList := by
  have hc : order.toList.toFinset = Finset.univ := by
    apply Finset.eq_univ_of_card
    rw [List.toFinset_card_of_nodup h]
    simp
  have : i ∈ order.toList.toFinset := by rw [hc]; exact Finset.mem_univ i
  simpa using this

/-- PROMOTE takes the index out and puts it at the end; where it stood there already, that changes nothing
(rule R112). -/
theorem promote_toList {order : Order n} (h : OrderWf order) (i : Fin n) :
    (promote order i).toList = order.toList.erase i ++ [i] := by
  have mem := h.mem i
  unfold promote
  split
  · rename_i last
    obtain ⟨front, hf⟩ := List.getLast?_eq_some_iff.mp last
    have notin : i ∉ front := by
      have h' : (front ++ [i]).Nodup := hf ▸ h
      rw [List.nodup_append] at h'
      intro hi
      exact h'.2.2 i hi i (by simp) rfl
    rw [hf, List.erase_append_right _ notin]
    simp
  · have len : (order.toList.erase i ++ [i]).length ≤ n := by
      have hpos : 0 < n := i.pos
      rw [List.length_append, List.length_erase_of_mem mem]
      simp
      omega
    show List.take n _ = _
    exact List.take_of_length_le len

/-- PROMOTE maps a permutation to a permutation (rule R115). -/
theorem promote_wf {order : Order n} (h : OrderWf order) (i : Fin n) : OrderWf (promote order i) := by
  rw [OrderWf, promote_toList h]
  rw [List.nodup_append]
  refine ⟨h.erase i, by simp, ?_⟩
  intro a ha b hb
  simp only [List.mem_singleton] at hb
  subst hb
  rintro rfl
  exact (h.not_mem_erase) ha

/-- The order's head is the index PEEK_LEAST gives (rule R113). -/
theorem toList_head [NeZero n] (order : Order n) : order.toList.head? = some (peekLeast order) := by
  have hpos : 0 < n := Nat.pos_of_neZero n
  rw [List.head?_eq_getElem?]
  simp [peekLeast, hpos]

/-- The ascending order is a permutation. -/
theorem ascendingOrder_wf (n : Nat) : OrderWf (ascendingOrder n) := List.nodup_finRange n

end Sys2Proof.Machine
end

