-- ==== Sys2Proof/Laws/Engine.lean ====
section
/-! SUPPORT. One lemma per shared operation that says everything it can do: the TLB's search, the choice of a target
frame, ENSURE_RESIDENT, step 2 of TRANSLATE, and the whole command. Proofs cite these and do not unfold. -/

namespace Sys2Proof.Machine

variable {s t : State} {page : PageNo}

/-! ### The address -/

/-- A page and an offset make an address in range (rules R61, R126). -/
theorem address_in_range (p : PageNo) (o : Offset) : p.val * 256 + o.val < vspace := (composeVirtual p o).isLt

/-- DECOMPOSE finds the page of an address put together from a page and an offset (rules R125, R126). -/
theorem pageOf_address (p : PageNo) (o : Offset) : pageOf ⟨p.val * 256 + o.val, address_in_range p o⟩ = p := by
  have ho : o.val < 256 := o.isLt
  apply Fin.ext
  show (p.val * 256 + o.val) >>> 8 = p.val
  rw [Nat.shiftRight_eq_div_pow]
  omega

/-- DECOMPOSE finds the offset of an address put together from a page and an offset (rules R125, R126). -/
theorem offsetOf_address (p : PageNo) (o : Offset) : offsetOf ⟨p.val * 256 + o.val, address_in_range p o⟩ = o := by
  have ho : o.val < 256 := o.isLt
  apply Fin.ext
  show (p.val * 256 + o.val) &&& (2 ^ 8 - 1) = o.val
  rw [Nat.and_two_pow_sub_one_eq_mod]
  omega

/-- Every address in range is put together from the page and the offset that DECOMPOSE finds (rule R127). -/
theorem address_split (addr : Nat) (lt : addr < vspace) :
    addr = (pageOf ⟨addr, lt⟩).val * 256 + (offsetOf ⟨addr, lt⟩).val := by
  have hp : (pageOf ⟨addr, lt⟩).val = addr / 256 := Nat.shiftRight_eq_div_pow addr 8
  have ho : (offsetOf ⟨addr, lt⟩).val = addr % 256 := Nat.and_two_pow_sub_one_eq_mod addr 8
  omega

/-- TRANSLATE of a page and an offset, with FAULT clear, is step 2 and what follows it (rule R165). -/
theorem exec_translate_address (p : PageNo) (o : Offset) (isWrite : Bool) (h : s.fault = none) :
    exec (.translate (p.val * 256 + o.val) isWrite) s =
      match resolve p s with
      | .done (k, frame) t => .next (complete k frame o t)
      | .raised e t => raise e t
      | .stuck => .fault .backingStoreNeverAnswers := by
  simp only [exec, execTranslate, faultPage, h, Option.map_none, address_in_range, dif_pos, translateInRange,
    decompose, pageOf_address, offsetOf_address]
  all_goals rfl

/-! ### LOOKUP -/

/-- A HIT is the lowest slot that holds the page (rule R130). -/
theorem findSlot_eq_some {k : SlotNo} :
    findSlot page s = some k ↔ s.tlb[k].page = some page ∧ ∀ j < k, s.tlb[j].page ≠ some page := by
  unfold findSlot
  rw [List.find?_eq_some_iff_getElem]
  constructor
  · rintro ⟨hk, i, hi, rfl, before⟩
    refine ⟨by simpa using hk, fun j hj => ?_⟩
    have lt : j.val < i := by simpa [Fin.lt_def] using hj
    simpa using before j.val lt
  · rintro ⟨hk, before⟩
    refine ⟨by simpa using hk, k.val, by simp, by simp, fun j hj => ?_⟩
    have small : j < tlbSlots := Nat.lt_trans hj k.isLt
    simpa using before ⟨j, small⟩ hj

/-- A MISS: no slot holds the page (rule R130). -/
theorem findSlot_eq_none : findSlot page s = none ↔ ∀ k : SlotNo, s.tlb[k].page ≠ some page := by
  simp [findSlot, List.find?_eq_none]

/-- The search reads the TLB only. -/
theorem findSlot_congr (h : s.tlb = t.tlb) : findSlot page s = findSlot page t := by
  simp [findSlot, h]

/-! ### The target frame -/

/-- While there is a fresh frame, it is the target and the fill count rises by one (rule R151). -/
theorem takeTarget_fresh (h : s.fill.val < numFrames) :
    (fillTarget s).val = s.fill.val ∧
      takeTarget s = { s with fill := ⟨s.fill.val + 1, Nat.succ_lt_succ h⟩ } := by
  simp [fillTarget, takeTarget, h]

/-- Once every frame has been handed out, the target is the least recently used one, and the page it holds becomes
invalid (rule R151). -/
theorem takeTarget_evict (h : ¬ s.fill.val < numFrames) :
    fillTarget s = peekLeast s.rlF ∧
      takeTarget s = match s.resident[fillTarget s] with
        | some oldPage => invalidate oldPage s
        | none => s := by
  refine ⟨by simp [fillTarget, h], ?_⟩
  unfold takeTarget
  rw [dif_neg h]
  all_goals rfl

/-- Whatever neither a new fill count nor an invalid page-table entry changes, `takeTarget` keeps. -/
theorem takeTarget_keeps {α : Type} (get : State → α)
    (hfill : ∀ (s : State) (v : Fin (numFrames + 1)), get { s with fill := v } = get s)
    (hpt : ∀ (s : State) (p : PageNo), get (invalidate p s) = get s) : get (takeTarget s) = get s := by
  unfold takeTarget
  split
  · exact hfill _ _
  · split
    · exact hpt _ _
    · rfl

@[simp] theorem takeTarget_tlb : (takeTarget s).tlb = s.tlb := takeTarget_keeps _ (fun _ _ => rfl) (fun _ _ => rfl)
@[simp] theorem takeTarget_rlT : (takeTarget s).rlT = s.rlT := takeTarget_keeps _ (fun _ _ => rfl) (fun _ _ => rfl)
@[simp] theorem takeTarget_mem : (takeTarget s).mem = s.mem := takeTarget_keeps _ (fun _ _ => rfl) (fun _ _ => rfl)
@[simp] theorem takeTarget_resident : (takeTarget s).resident = s.resident := takeTarget_keeps _ (fun _ _ => rfl) (fun _ _ => rfl)
@[simp] theorem takeTarget_rlF : (takeTarget s).rlF = s.rlF := takeTarget_keeps _ (fun _ _ => rfl) (fun _ _ => rfl)
@[simp] theorem takeTarget_stat : (takeTarget s).stat = s.stat := takeTarget_keeps _ (fun _ _ => rfl) (fun _ _ => rfl)
@[simp] theorem takeTarget_fault : (takeTarget s).fault = s.fault := takeTarget_keeps _ (fun _ _ => rfl) (fun _ _ => rfl)
@[simp] theorem takeTarget_tlbSeed : (takeTarget s).tlbSeed = s.tlbSeed := takeTarget_keeps _ (fun _ _ => rfl) (fun _ _ => rfl)
@[simp] theorem takeTarget_frameSeed : (takeTarget s).frameSeed = s.frameSeed := takeTarget_keeps _ (fun _ _ => rfl) (fun _ _ => rfl)
@[simp] theorem takeTarget_bs : (takeTarget s).bs = s.bs := takeTarget_keeps _ (fun _ _ => rfl) (fun _ _ => rfl)
@[simp] theorem takeTarget_draws : (takeTarget s).draws = s.draws := takeTarget_keeps _ (fun _ _ => rfl) (fun _ _ => rfl)
@[simp] theorem takeTarget_reads : (takeTarget s).reads = s.reads := takeTarget_keeps _ (fun _ _ => rfl) (fun _ _ => rfl)
@[simp] theorem takeTarget_resets : (takeTarget s).resets = s.resets := takeTarget_keeps _ (fun _ _ => rfl) (fun _ _ => rfl)
@[simp] theorem takeTarget_inbox : (takeTarget s).inbox = s.inbox := takeTarget_keeps _ (fun _ _ => rfl) (fun _ _ => rfl)
@[simp] theorem takeTarget_response : (takeTarget s).response = s.response := takeTarget_keeps _ (fun _ _ => rfl) (fun _ _ => rfl)
@[simp] theorem takeTarget_sent : (takeTarget s).sent = s.sent := takeTarget_keeps _ (fun _ _ => rfl) (fun _ _ => rfl)

/-- The page table after a target has been chosen: unchanged on the fresh path, without the victim's page on the eviction
path (rule R151). -/
theorem takeTarget_pt : (takeTarget s).pt =
    if s.fill.val < numFrames then s.pt
    else match s.resident[fillTarget s] with
      | some oldPage => s.pt.set oldPage none
      | none => s.pt := by
  by_cases h : s.fill.val < numFrames
  · rw [if_pos h, (takeTarget_fresh h).2]
  · rw [if_neg h, (takeTarget_evict h).2]
    cases s.resident[fillTarget s] <;> rfl

/-- The fill count after a target has been chosen (rule R151). -/
theorem takeTarget_fill : (takeTarget s).fill.val =
    if s.fill.val < numFrames then s.fill.val + 1 else s.fill.val := by
  by_cases h : s.fill.val < numFrames
  · rw [if_pos h, (takeTarget_fresh h).2]
  · rw [if_neg h, (takeTarget_evict h).2]
    cases s.resident[fillTarget s] <;> rfl

/-- The fill count never falls and rises by at most one (rules R42, R151). -/
theorem takeTarget_fill_le : s.fill.val ≤ (takeTarget s).fill.val ∧ (takeTarget s).fill.val ≤ s.fill.val + 1 := by
  by_cases h : s.fill.val < numFrames
  · rw [(takeTarget_fresh h).2]
    exact ⟨Nat.le_succ _, Nat.le_refl _⟩
  · rw [(takeTarget_evict h).2]
    split <;> simp

/-! ### The backing store -/

/-- A read comes back with bytes exactly when the page lies inside the store and the device answers, and they are the
store's (rule R66). -/
theorem bsAnswer_ok {off : Nat} {bytes : List Byte} :
    bsAnswer off s = .ok bytes ↔
      off + pageSize ≤ s.bs.size ∧ nextDraw s = .answers ∧ bytes = s.bs.pageAt off := by
  by_cases past : s.bs.size < off + pageSize
  · simp [bsAnswer, past]
  · cases h : nextDraw s <;> simp [bsAnswer, past, h, Nat.le_of_not_lt past, eq_comm]

/-- A read comes back with an error exactly when the page runs past BS_SIZE or the device fails it (rule R66). -/
theorem bsAnswer_ioerror {off : Nat} :
    bsAnswer off s = .ioerror ↔ s.bs.size < off + pageSize ∨ nextDraw s = .fails := by
  by_cases past : s.bs.size < off + pageSize
  · simp [bsAnswer, past]
  · cases h : nextDraw s <;> simp [bsAnswer, past, h]

/-- A read never comes back exactly when the page lies inside the store and the device never answers (rules R66, R67). -/
theorem bsAnswer_noAnswer {off : Nat} :
    bsAnswer off s = .noAnswer ↔ off + pageSize ≤ s.bs.size ∧ nextDraw s = .neverAnswers := by
  by_cases past : s.bs.size < off + pageSize
  · simp [bsAnswer, past]
  · cases h : nextDraw s <;> simp [bsAnswer, past, h, Nat.le_of_not_lt past]

/-! ### ENSURE_RESIDENT -/

/-- The state after ENSURE_RESIDENT's steps 2 and 3 and the request to the device (rule R150). -/
def afterTarget (s : State) : State := countRead (takeTarget (countPageFault s))

/-- Everything ENSURE_RESIDENT can come to when it is done: the page was valid and nothing changed, or the page was
filled into the target frame and mapped (rules R150, R152). -/
theorem ensureResident_done {frame : FrameNo} (h : ensureResident page s = .done frame t) :
    (s.pt[page] = some frame ∧ t = s) ∨
      (s.pt[page] = none ∧ bsAnswer (pageBase page) s = .ok (s.bs.pageAt (pageBase page)) ∧ frame = fillTarget s ∧
        t = fillAndMap page (fillTarget s) (s.bs.pageAt (pageBase page)) (afterTarget s)) := by
  unfold ensureResident frameOf at h
  split at h
  · rename_i f hf
    simp only [Attempt.done.injEq] at h
    obtain ⟨rfl, rfl⟩ := h
    exact .inl ⟨hf, rfl⟩
  · rename_i hnone
    split at h
    · simp at h
    · simp at h
    · rename_i bytes hbytes
      have hb : bytes = s.bs.pageAt (pageBase page) := (bsAnswer_ok.mp hbytes).2.2
      subst hb
      simp only [Attempt.done.injEq] at h
      obtain ⟨rfl, rfl⟩ := h
      exact .inr ⟨hnone, hbytes, rfl, rfl⟩

/-- ENSURE_RESIDENT ends the command only with ERR_BACKING_STORE_IO, on a page that was invalid and whose read failed;
steps 2 and 3 stay (rule R153). -/
theorem ensureResident_raised {e : Resp} (h : ensureResident page s = .raised e t) :
    s.pt[page] = none ∧ bsAnswer (pageBase page) s = .ioerror ∧ e = .errBackingStoreIO page ∧
      t = abandonFill page (fillTarget s) s.reads (afterTarget s) := by
  unfold ensureResident frameOf at h
  split at h
  · simp at h
  · rename_i hnone
    split at h
    · simp at h
    · rename_i herr
      simp only [Attempt.raised.injEq] at h
      exact ⟨hnone, herr, h.1.symm, h.2.symm⟩
    · simp at h

/-- ENSURE_RESIDENT waits for ever exactly when the page is invalid, lies inside the store, and the device never answers
(rules R66, R67). -/
theorem ensureResident_stuck :
    ensureResident page s = .stuck ↔
      s.pt[page] = none ∧ pageBase page + pageSize ≤ s.bs.size ∧ nextDraw s = .neverAnswers := by
  rw [← bsAnswer_noAnswer]
  unfold ensureResident frameOf
  cases hp : s.pt[page] with
  | some f => simp
  | none => cases hb : bsAnswer (pageBase page) s <;> simp

/-! ### Step 2 of TRANSLATE -/

/-- Everything step 2 can come to when it is done: a TLB hit, counted; or a miss whose page ENSURE_RESIDENT has made
resident and which is installed in the least recently used slot (rules R130-R133, R165). -/
theorem resolve_done {k : SlotNo} {frame : FrameNo} (h : resolve page s = .done (k, frame) t) :
    (findSlot page s = some k ∧ frame = s.tlb[k].frame ∧ t = countTlbHit s) ∨
      (findSlot page s = none ∧ ∃ u, ensureResident page s = .done frame u ∧ k = peekLeast u.rlT ∧
        t = install k page frame u) := by
  unfold resolve tlbLookup at h
  cases hf : findSlot page s with
  | some j =>
    simp only [hf, Attempt.done.injEq, Prod.mk.injEq] at h
    obtain ⟨⟨rfl, rfl⟩, rfl⟩ := h
    exact .inl ⟨rfl, rfl, rfl⟩
  | none =>
    simp only [hf] at h
    split at h
    · rename_i f u hu
      simp only [Attempt.done.injEq, Prod.mk.injEq] at h
      obtain ⟨⟨rfl, rfl⟩, rfl⟩ := h
      exact .inr ⟨rfl, u, hu, rfl, rfl⟩
    · simp at h
    · simp at h

/-- Step 2 ends the command only as ENSURE_RESIDENT does, after a miss (rule R165). -/
theorem resolve_raised {e : Resp} (h : resolve page s = .raised e t) :
    findSlot page s = none ∧ ensureResident page s = .raised e t := by
  unfold resolve tlbLookup at h
  cases hf : findSlot page s with
  | some j => simp [hf] at h
  | none =>
    simp only [hf] at h
    split at h
    · simp at h
    · rename_i e' u hu
      simp only [Attempt.raised.injEq] at h
      obtain ⟨rfl, rfl⟩ := h
      exact ⟨rfl, hu⟩
    · simp at h

/-- Step 2 waits for ever exactly when the page is in no slot, is invalid, lies inside the store, and the device never
answers. -/
theorem resolve_stuck :
    resolve page s = .stuck ↔ findSlot page s = none ∧ s.pt[page] = none ∧
      pageBase page + pageSize ≤ s.bs.size ∧ nextDraw s = .neverAnswers := by
  unfold resolve tlbLookup
  cases hf : findSlot page s with
  | some j => simp
  | none =>
    rw [← ensureResident_stuck]
    cases he : ensureResident page s <;> simp [he]

/-! ### The commands -/

/-- Everything a command can do when it answers a next state: it answers and changes nothing else; or it is a
TRANSLATE that completed; or it is a TRANSLATE whose fill failed (rules R165-R170). -/
theorem exec_next {i : Instr} (h : exec i s = .next t) :
    (∃ r, t = respond r s ∧ ∀ pa v, r ≠ .translated pa v) ∨
      (∃ (addr : Nat) (w : Bool) (lt : addr < vspace) (k : SlotNo) (frame : FrameNo) (u : State),
        i = .translate addr w ∧ s.fault = none ∧ resolve (pageOf ⟨addr, lt⟩) s = .done (k, frame) u ∧
        t = complete k frame (offsetOf ⟨addr, lt⟩) u) ∨
      (∃ (addr : Nat) (w : Bool) (lt : addr < vspace) (u : State),
        i = .translate addr w ∧ s.fault = none ∧
        resolve (pageOf ⟨addr, lt⟩) s = .raised (.errBackingStoreIO (pageOf ⟨addr, lt⟩)) u ∧
        t = respond (.errBackingStoreIO (pageOf ⟨addr, lt⟩)) u) := by
  cases i with
  | translateMalformed =>
    simp only [exec, execTranslateMalformed, raise] at h
    split at h <;> (injection h with h; subst h; exact .inl ⟨_, rfl, by simp⟩)
  | report =>
    simp only [exec, execReport] at h
    injection h with h
    subst h
    exact .inl ⟨_, rfl, by simp⟩
  | translate addr w =>
    simp only [exec, execTranslate, raise] at h
    split at h
    · injection h with h
      subst h
      exact .inl ⟨_, rfl, by simp⟩
    · rename_i hfault
      have nofault : s.fault = none := by simpa [faultPage] using hfault
      split at h
      · rename_i lt
        simp only [translateInRange, decompose, raise] at h
        split at h
        · rename_i k frame u hr
          injection h with h
          exact .inr (.inl ⟨addr, w, lt, k, frame, u, rfl, nofault, hr, h.symm⟩)
        · rename_i e u hr
          injection h with h
          obtain ⟨-, he⟩ := resolve_raised hr
          obtain ⟨-, -, rfl, -⟩ := ensureResident_raised he
          exact .inr (.inr ⟨addr, w, lt, u, rfl, nofault, hr, h.symm⟩)
        · simp at h
      · injection h with h
        subst h
        exact .inl ⟨_, rfl, by simp⟩

end Sys2Proof.Machine
end

