-- ==== Sys2Proof/Laws/PerInstr.lean ====
section
/-! SUPPORT. Statements made per command, one lemma a constructor of Instr. -/

namespace Sys2Proof

/-- A command word seen as the number its fields make up (rule R86). -/
theorem commandWord_toNat (op : BitVec 4) (m w : Bool) (addr : BitVec 32) :
    (commandWord op m w addr).toNat =
      op.toNat * 2 ^ 60 + m.toNat * 2 ^ 33 + w.toNat * 2 ^ 32 + addr.toNat := by
  have ha := addr.isLt
  have hw := Bool.toNat_lt w
  have hm := Bool.toNat_lt m
  simp only [commandWord, BitVec.toNat_append, BitVec.toNat_ofBool, BitVec.ofNat_eq_ofNat, BitVec.toNat_ofNat,
    Nat.zero_mod, Nat.or_zero]
  rw [← Nat.shiftLeft_add_eq_or_of_lt ha,
    ← Nat.shiftLeft_add_eq_or_of_lt (show w.toNat < 2 ^ 1 from hw),
    ← Nat.shiftLeft_add_eq_or_of_lt (show m.toNat < 2 ^ 1 from hm)]
  simp only [Nat.shiftLeft_eq]
  omega

end Sys2Proof

namespace Sys2Proof.Laws.EncodingForm

/-- The word of the command matches the command's own row of the opcode table (rule R95). -/
def Statement (i : Instr) : Prop :=
  ∃ row ∈ opcodeRows, row.mnemonic = i.mnemonic ∧ row.covers (encode i) = true

/-- A word built from its fields matches a mask of its 31 upper bits by those bits alone. -/
theorem upper_bits (m w : Bool) (addr : BitVec 32) :
    commandWord 0x1 m w addr &&& 0xFFFFFFFE00000000 = commandWord 0x1 m false 0 := by
  apply BitVec.eq_of_getLsbD_eq
  intro i hi
  interval_cases i <;>
    simp only [commandWord, BitVec.getLsbD_and, BitVec.getLsbD_append] <;> simp

theorem translate (addr : Nat) (isWrite : Bool) : Statement (.translate addr isWrite) := by
  refine ⟨_, List.mem_cons_self .., rfl, ?_⟩
  simp only [OpcodeRow.covers, encode, upper_bits]
  decide

theorem translateMalformed : Statement .translateMalformed :=
  ⟨_, List.mem_cons_of_mem _ (List.mem_cons_self ..), rfl, by decide⟩

theorem report : Statement .report :=
  ⟨_, List.mem_cons_of_mem _ (List.mem_cons_of_mem _ (List.mem_cons_self ..)), rfl, by decide⟩

end Sys2Proof.Laws.EncodingForm
end

