-- ==== Sys2Proof/Tests/Slice0.lean ====
section
/-! SUPPORT. Tests, each with the place of the spec its expected value comes from, and for every statement with
hypotheses a witness that meets them. -/

open Sys2Proof Sys2Proof.Machine

namespace Sys2Proof.Tests

/-! ### Small states -/

/-- A backing store of 65536 bytes whose byte at offset o of page p is p XOR o on the given pages, as in section 0 of
95_test_vectors.md, and 0 elsewhere. -/
def xorStore (pages : List Nat) : BackingStore :=
  ⟨65536, pages.flatMap fun p => (List.range 256).map fun o => (p * 256 + o, BitVec.ofNat 8 (p ^^^ o))⟩

/-- A block right after reset with such a store and these inputs to come. -/
def cold (pages : List Nat) (inputs : List HostInput) : State :=
  { State.reset with bs := xorStore pages, inbox := inputs }

/-- A block whose slot 3 holds page 7 in frame 2, with one byte of that frame written. -/
def oneSlot : State :=
  { State.reset with
    tlb := (emptyTlb 0).set 3 ⟨some 7, 2⟩
    pt := (Vector.replicate numPages none).set 7 (some 2)
    mem := [(517, 0x80)] }

/-- A block faulted by page 255, with counters 0, 1, 0. -/
def faulted : State := { State.reset with fault := some ⟨.backingStoreIOError, 255⟩, stat := ⟨0, 1, 0⟩ }

/-- The byte 0 at the first `n` physical addresses. -/
def zeroMemory (n : Nat) : Memory := (List.range n).map fun pa => (pa, 0)

/-- Entry i holds i, where that is below `m`. -/
def identityMap {m : Nat} (n : Nat) : Vector (Option (Fin m)) n :=
  ⟨⟨(List.range n).map fun i => if h : i < m then some ⟨i, h⟩ else none⟩, by simp⟩

/-- A block that has filled frame f with page f of an all-zero store for every f, with an empty TLB. -/
def fullBlock : State :=
  { State.reset with
    pt := identityMap 256
    mem := zeroMemory 32768
    resident := identityMap 128
    fill := 128
    stat := ⟨128, 128, 0⟩
    bs := ⟨65536, []⟩ }

/-- The same block, whose device fails the next read. -/
def failing : State := { fullBlock with draws := [.fails] }

/-- A block right after reset with an all-zero store, whose device never answers the next read. -/
def silent : State := { State.reset with bs := ⟨65536, []⟩, draws := [.neverAnswers] }

/-- What the block has replied after the next step. -/
def repliesAfterStep (s : State) : Option (List Reply) := (nextState? (step s)).map (·.sent)

/-- The response a command ends with. -/
def responseOf (i : Instr) (s : State) : Option Resp := (nextState? (exec i s)).bind (·.response)

/-- A command or a step that answers, with a property of the state it answers. -/
theorem answers {o : Outcome} (P : State → Bool) (h : (nextState? o).any P = true) :
    ∃ t, o = .next t ∧ P t = true := by
  cases o with
  | next t => exact ⟨t, rfl, h⟩
  | fault e => cases h
  | refused e => cases h

/-! ### WellFormed and Decode -/

/-- The one check of `wellFormed` refuses an address that the word form cannot carry (rule R89). -/
theorem test_wellFormed_refuses_a_wide_address : Instr.wellFormed (.translate 4294967296 false) = false := by decide

theorem test_wellFormed_takes_the_widest_address : Instr.wellFormed (.translate 4294967295 true) = true := by decide

/-- Word TE-5 of 95_test_vectors.md, written out by rule R86's fields: OP 0001, RSVD 26 zeros, M 0, W 1, ADDR 0x1234. -/
theorem test_decode_translate_bit_by_bit :
    decode ((0b0001 : BitVec 4) ++ (0 : BitVec 26) ++ (0b0 : BitVec 1) ++ (0b1 : BitVec 1) ++ (0x00001234 : BitVec 32)) =
      .command (.translate 4660 true) := by decide

/-- Word TE-7: M 1, the W and ADDR bits ignored (rule R90). -/
theorem test_decode_malformed_bit_by_bit :
    decode ((0b0001 : BitVec 4) ++ (0 : BitVec 26) ++ (0b1 : BitVec 1) ++ (0b1 : BitVec 1) ++ (0x00001234 : BitVec 32)) =
      .command .translateMalformed := by decide

/-- Rule R92's word. -/
theorem test_decode_report_bit_by_bit : decode ((0b0010 : BitVec 4) ++ (0 : BitVec 60)) = .command .report := by decide

/-- Words TE-8, TE-10, TE-11 and TE-12 are illegal. -/
theorem test_decode_illegal_words :
    decode 0 = .illegal 0 ∧ decode 0x2000000000000001 = .illegal 0x2000000000000001 ∧
      decode 0x1000000400000000 = .illegal 0x1000000400000000 ∧
      decode 0x3000000000000000 = .illegal 0x3000000000000000 := by decide

theorem test_decodeTableWord :
    decodeTableWord 64 0x1000000000000000 = some (.translate 0 false) ∧
      decodeTableWord 64 0x1000000200000000 = some .translateMalformed ∧
      decodeTableWord 64 0x2000000000000000 = some .report ∧ decodeTableWord 64 0 = none := by decide

/-! ### Components -/

/-- Vectors RL-2, RL-3 and RL-4. -/
theorem test_promote :
    (promote (ascendingOrder 4) 2).toList = [0, 1, 3, 2] ∧
      (promote (promote (ascendingOrder 4) 2) 2).toList = [0, 1, 3, 2] ∧
      (promote (promote (ascendingOrder 4) 2) 0).toList = [1, 3, 2, 0] := by decide

/-- Vector RL-5: after PROMOTE of 0, 1 and 2 the least recent is 3, and after PROMOTE of 3 it is 0 again. -/
theorem test_peekLeast :
    peekLeast ([0, 1, 2].foldl promote (ascendingOrder 4)) = 3 ∧
      peekLeast ([0, 1, 2, 3].foldl promote (ascendingOrder 4)) = 0 := by decide

/-- An arena of capacity 4 with arbitrary contents. -/
def anyArena : Arena 4 := ⟨Vector.replicate 5 0, Vector.replicate 5 none, 0⟩

/-- Vectors RL-8 and RL-9: the arena of [0,1,2,3], and the orders after PROMOTE of 1 and then of 0. -/
theorem test_arena :
    (arenaSeed (ascendingOrder 4) anyArena).next.toList = [4, 0, 1, 2, 0] ∧
      (arenaSeed (ascendingOrder 4) anyArena).prev.toList = [some 1, some 2, some 3, none, some 0] ∧
      arenaOrder (arenaPromote 1 (arenaSeed (ascendingOrder 4) anyArena)) = [0, 2, 3, 1] ∧
      arenaOrder (arenaPromote 0 (arenaPromote 1 (arenaSeed (ascendingOrder 4) anyArena))) = [2, 3, 1, 0] := by decide

/-- Section 2.2: 1234 is page 4, offset 210; frame 127, offset 255 is the top physical address. -/
theorem test_decompose : decompose 1234 = (4, 210) ∧ (composePhysical 127 255).val = 32767 := by decide

/-- Vectors RB-2, RB-3 and RB-4. -/
theorem test_sext8 : sext8 0x7F = 127 ∧ sext8 0x80 = -128 ∧ sext8 0xFF = -1 := by decide

/-- Example of rule R130, and vector TL-5: an EMPTY slot never matches. -/
theorem test_lookup :
    (tlbLookup 7 oneSlot).1 = some 3 ∧ (tlbLookup 7 oneSlot).2.stat = ⟨0, 0, 1⟩ ∧ (tlbLookup 0 oneSlot).1 = none := by
  decide

/-! ### Commands, by the vectors and programs of 95_test_vectors.md -/

/-- Vector TE-5: `translate.w 4660` on a cold block. -/
theorem test_translate_cold :
    repliesAfterStep (cold [18] [.word 0x1000000100001234]) = some [.words [0x0000000000003426]] := by decide +kernel

/-- Program P5, step 1: the short read of page 255 with BS_SIZE 65280, and what it leaves; by rule R66 also where the
device's draw for that read is silence. -/
theorem test_translate_short_read (draw : Draw) :
    (nextState? (step
        { State.reset with bs := ⟨65280, []⟩, draws := [draw], inbox := [.word 0x100000000000FF00] })).map
        (fun t => ((t.sent, t.stat), (t.fill, t.resident[0], t.fault))) =
      some (([.words [0xA0000000000000FF]], ⟨0, 1, 0⟩), (1, none, some ⟨.backingStoreIOError, 255⟩)) := by
  cases draw <;> decide +kernel

/-- Vectors TE-7 and TE-14. -/
theorem test_malformed :
    repliesAfterStep { State.reset with inbox := [.word 0x1000000300001234] } = some [.words [0x9000000000000000]] ∧
      repliesAfterStep { faulted with inbox := [.word 0x1000000200000000] } = some [.words [0xC0000000000000FF]] := by
  decide +kernel

/-- Vectors TE-9 and TE-15. -/
theorem test_report_words :
    repliesAfterStep { State.reset with inbox := [.word 0x2000000000000000] } =
        some [.words [0x2000000000000000, 0, 0, 0]] ∧
      repliesAfterStep { faulted with inbox := [.word 0x2000000000000000] } =
        some [.words [0x20000000000001FF, 0, 1, 0]] := by decide +kernel

/-- Program P1, step 6: the exact figures of 5 translations, 3 faults and 2 hits. -/
theorem test_report_rates :
    responseOf .report { State.reset with stat := ⟨5, 3, 2⟩ } = some (.reported 5 3 2 none (.rates 60 (2 / 5))) := by
  decide +kernel

/-- Vector TE-16: an illegal word while FAULT is set. -/
theorem test_illegal_word :
    repliesAfterStep { faulted with inbox := [.word 0xF000000000000000] } = some [.words [0xB000000000000000]] := by
  decide +kernel

/-- Each row's word runs as the first command after reset. -/
theorem test_rows_run_after_reset :
    (nextState? (step (State.reset.withFetchWord 64 0x1000000000000000))).isSome ∧
      (nextState? (step (State.reset.withFetchWord 64 0x1000000200000000))).isSome ∧
      (nextState? (step (State.reset.withFetchWord 64 0x2000000000000000))).isSome := by decide +kernel

/-- Rule R101's records and rule R100's syntax. -/
theorem test_host_side :
    recordCommand ['1', '2', '3', ' ', 'x'] = .translate 123 false ∧ recordCommand ['-', '1'] = .translateMalformed ∧
      assemble (kwTranslateW ++ [' ', '0', 'x', '1', '2', '3', '4', ' ', ';', 'c']) = some (.translate 4660 true) := by
  decide +kernel

/-! ### Witnesses: every statement's hypotheses can be met -/

theorem witness_DecoderFollowsItsRule :
    (let w : Word64 := 0x1000000200000000; w.toNat / 2 ^ 60 = 1 ∧ w.toNat / 2 ^ 34 % 2 ^ 26 = 0 ∧ w.toNat / 2 ^ 33 % 2 = 1) ∧
    (let w : Word64 := 0x10000001FFFFFFFF; w.toNat / 2 ^ 60 = 1 ∧ w.toNat / 2 ^ 34 % 2 ^ 26 = 0 ∧ w.toNat / 2 ^ 33 % 2 = 0) ∧
    (let w : Word64 := 0x2000000000000000; w.toNat / 2 ^ 60 = 2 ∧ w.toNat % 2 ^ 60 = 0) ∧
    (let w : Word64 := 0x1000000400000000;
      ¬ (w.toNat / 2 ^ 60 = 1 ∧ w.toNat / 2 ^ 34 % 2 ^ 26 = 0) ∧ ¬ (w.toNat / 2 ^ 60 = 2 ∧ w.toNat % 2 ^ 60 = 0)) := by
  decide

theorem witness_DecodingAnEncodedCommandGivesItBack :
    Instr.wellFormed (.translate 4294967295 true) = true ∧ Instr.wellFormed .translateMalformed = true := by decide

theorem witness_EncodingADecodedCommandGivesItBack :
    decode 0x10000001FFFFFFFF = .command (.translate 4294967295 true) ∧
      Instr.translate 4294967295 true ≠ .translateMalformed := by decide

theorem witness_WideAddressesSaturateInTheWordForm : 2 ^ 32 ≤ 4294967296 ∧ State.reset.fault = none := by decide

theorem witness_ResponseWordsFollowTheStatusTable :
    (-128 ≤ (-128 : Int) ∧ (-128 : Int) ≤ 127) ∧ (18446744073709551615 < 2 ^ 64) ∧ (4294967295 < 2 ^ 32) ∧
      Resp.errMalformedRecord.pack = some [0x9000000000000000] := by decide

theorem witness_ReportedResponsesAreFourWords :
    (∃ t r, exec .report faulted = .next t ∧ t.response = some r ∧ faulted.stat.pageFaults < 2 ^ 64) ∧
    (∃ t r, exec .report { faulted with stat := ⟨2 ^ 64, 0, 0⟩ } = .next t ∧ t.response = some r) :=
  ⟨⟨_, _, rfl, rfl, by decide⟩, ⟨_, _, rfl, rfl⟩⟩

theorem witness_RecordsBecomeCommands :
    (['1', '2'] ≠ [] ∧ (∀ c ∈ ['1', '2'], c.isDigit = true) ∧
      (∀ c, ['x'].head? = some c → c.isDigit = false)) ∧
    (∀ c, ([] : List Char).head? = some c → c.isDigit = false) := by
  refine ⟨⟨by decide, by simp, ?_⟩, by simp⟩
  intro c h
  simp only [List.head?_cons, Option.some.injEq] at h
  subst h
  decide

/-- A decimal address, a hexadecimal one with the first and the last digit of each kind, and a line that assembles. -/
theorem witness_CommandLinesAssemble :
    (['7'] ≠ [] ∧ ∀ c ∈ ['7'], c.isDigit = true) ∧
    (['0', '9', 'a', 'f', 'A', 'F'] ≠ [] ∧
      ∀ c ∈ ['0', '9', 'a', 'f', 'A', 'F'], c ∈
        ['0', '1', '2', '3', '4', '5', '6', '7', '8', '9', 'a', 'b', 'c', 'd', 'e', 'f', 'A', 'B', 'C', 'D', 'E', 'F']) ∧
    ∃ i, assemble (kwReport ++ [' ', ';']) = some i :=
  ⟨by simp, by simp, .report, by decide +kernel⟩

theorem witness_LruLaw : OrderWf (ascendingOrder 4) ∧ (2 : Fin 4) ∉ [0, 1, 3] := by decide

theorem witness_OrderAfterPromotions : OrderWf (ascendingOrder 4) := by decide

theorem witness_ArenaImplementsTheRecencyList : OrderWf (ascendingOrder 1) ∧ OrderWf (ascendingOrder 4) := by decide

theorem witness_LookupFindsTheLowestMatchingSlot :
    oneSlot.tlb[(3 : SlotNo)].page = some 7 ∧ (∀ j < (3 : SlotNo), oneSlot.tlb[j].page ≠ some 7) ∧
      (∀ k : SlotNo, oneSlot.tlb[k].page ≠ some 8) ∧ ∃ t, tlbLookup 7 oneSlot = (some 3, t) :=
  ⟨by decide, by decide, by decide, _, rfl⟩

theorem witness_ReadByteIsTheSignedPattern :
    List.lookup ((2 : FrameNo).val * 256 + (5 : Offset).val) oneSlot.mem = some 0x80 := by decide

theorem witness_ResidentPagesAreServedWithoutAFault : oneSlot.pt[(7 : PageNo)] = some 2 := by decide

theorem witness_AFillPlacesThePageByteForByte :
    (cold [1] []).pt[(1 : PageNo)] = none ∧ ∃ f t, ensureResident 1 (cold [1] []) = .done f t :=
  ⟨by decide, _, _, rfl⟩

theorem witness_TranslateOnATlbHit :
    oneSlot.fault = none ∧ oneSlot.tlb[(3 : SlotNo)].page = some 7 ∧
      ∀ j < (3 : SlotNo), oneSlot.tlb[j].page ≠ some 7 := by decide

theorem witness_TranslateOnAPageTableHit :
    fullBlock.fault = none ∧ (∀ j : SlotNo, fullBlock.tlb[j].page ≠ some 0) ∧ fullBlock.pt[(0 : PageNo)] = some 0 := by
  decide +kernel

theorem witness_TranslateOnAPageFaultTakesTheNextFreshFrame :
    (cold [255] []).fault = none ∧ (∀ j : SlotNo, (cold [255] []).tlb[j].page ≠ some 255) ∧
      (cold [255] []).pt[(255 : PageNo)] = none ∧ (cold [255] []).fill.val = (0 : FrameNo).val ∧
      ReadSucceeds 255 (cold [255] []) := by decide +kernel

theorem witness_TranslateOnAPageFaultEvictsTheLeastRecentFrame :
    fullBlock.fault = none ∧ (∀ j : SlotNo, fullBlock.tlb[j].page ≠ some 128) ∧ fullBlock.pt[(128 : PageNo)] = none ∧
      fullBlock.fill.val = 128 ∧ peekLeast fullBlock.rlF = 0 ∧ ReadSucceeds 128 fullBlock := by decide +kernel

/-- On the fresh path with a short store, and on the eviction path with a failing device. -/
theorem witness_TranslateWhoseFillFails :
    (State.reset.fault = none ∧ (∀ j : SlotNo, State.reset.tlb[j].page ≠ some 255) ∧ State.reset.pt[(255 : PageNo)] = none ∧
      State.reset.bs.size < (255 : PageNo).val * 256 + 256 ∧
      (State.reset.fill.val < 128 ∧ (0 : FrameNo).val = State.reset.fill.val)) ∧
    (failing.fault = none ∧ (∀ j : SlotNo, failing.tlb[j].page ≠ some 128) ∧ failing.pt[(128 : PageNo)] = none ∧
      nextDraw failing = .fails ∧ (failing.fill.val = 128 ∧ (0 : FrameNo) = peekLeast failing.rlF)) := by
  decide +kernel

/-- The last page of a store of exactly 65536 bytes (boundary of rule R66). -/
theorem witness_OnlyASilentBackingStoreBlocksACommand :
    exec (.translate ((255 : PageNo).val * 256 + (255 : Offset).val) false) silent =
      .fault .backingStoreNeverAnswers := by
  rw [exec_translate_address _ _ _ rfl, resolve_stuck.mpr ⟨by decide, by decide, by decide, rfl⟩]

theorem witness_OutOfRangeAddressesAreRejected : State.reset.fault = none ∧ 65535 < 65536 := by decide

theorem witness_MalformedRecordsAreRejected :
    State.reset.fault = none ∧ faulted.fault = some ⟨.backingStoreIOError, 255⟩ := by decide

theorem witness_AFaultedBlockTranslatesNothing :
    faulted.fault = some ⟨.backingStoreIOError, 255⟩ ∧ (∃ t, step faulted = .next t) ∧
      faulted.inbox.head? ≠ some .reset := ⟨by decide, ⟨_, rfl⟩, by decide⟩

/-- A TRANSLATE that does not fault (a hit) and one that does. -/
theorem witness_TranslateFrame :
    (∃ t, exec (.translate 1797 false) oneSlot = .next t) ∧
      (¬ (oneSlot.fault = none ∧ ∃ p : PageNo, 1797 / 256 = p.val ∧ (∀ j : SlotNo, oneSlot.tlb[j].page ≠ some p) ∧
        oneSlot.pt[p] = none)) ∧
      ∃ t, exec (.translate 256 false) (cold [1] []) = .next t := by
  refine ⟨⟨_, rfl⟩, ?_, ⟨_, rfl⟩⟩
  rintro ⟨-, p, hp, h, -⟩
  have h7 : p = 7 := Fin.ext hp.symm
  subst h7
  exact h 3 (by decide)

theorem witness_MalformedAndReportFrame :
    (∃ t, exec .translateMalformed oneSlot = .next t) ∧ ∃ t, exec .report oneSlot = .next t := ⟨⟨_, rfl⟩, ⟨_, rfl⟩⟩

theorem witness_ErrorsArePrecise :
    (∃ t, exec (.translate 65536 false) oneSlot = .next t ∧ t.response = some (.errAddressOutOfRange 65536)) ∧
      (∃ t, exec .translateMalformed oneSlot = .next t ∧ t.response = some .errMalformedRecord) ∧
      ∃ t, exec (.translate 0 false) faulted = .next t ∧ t.response = some (.errFaulted 255) :=
  ⟨⟨_, rfl, rfl⟩, ⟨_, rfl, rfl⟩, ⟨_, rfl, rfl⟩⟩

/-- A hit, a miss on a valid page, and a command that translates nothing. -/
theorem witness_OnePromotionInEachListPerTranslation :
    (∃ t pa v, exec (.translate 1797 false) oneSlot = .next t ∧ t.response = some (.translated pa v)) ∧
      (∃ t, exec (.translate 5 false) fullBlock = .next t ∧ (t.response == some (.translated 5 0)) = true) ∧
      ∃ t, exec .report oneSlot = .next t ∧ ∀ pa v, t.response ≠ some (.translated pa v) :=
  ⟨⟨_, _, _, rfl, rfl⟩, answers (fun t => t.response == some (.translated 5 0)) (by decide +kernel), ⟨_, rfl, by simp⟩⟩

/-- A hit, a miss that faults, and a miss on a valid page. -/
theorem witness_CountersRiseAtTheirOnePoint :
    ((∃ t, exec (.translate ((7 : PageNo).val * 256 + (5 : Offset).val) false) oneSlot = .next t ∧ true = true) ∧
      oneSlot.fault = none ∧ ∃ k : SlotNo, oneSlot.tlb[k].page = some 7) ∧
    ((∃ t, exec (.translate ((1 : PageNo).val * 256 + (0 : Offset).val) false) (cold [1] []) = .next t ∧ true = true) ∧
      (cold [1] []).fault = none ∧ (∀ k : SlotNo, (cold [1] []).tlb[k].page ≠ some 1) ∧
      (cold [1] []).pt[(1 : PageNo)] = none) ∧
    (∃ t, exec (.translate ((0 : PageNo).val * 256 + (5 : Offset).val) false) fullBlock = .next t ∧ true = true) ∧
      (∀ k : SlotNo, fullBlock.tlb[k].page ≠ some 0) ∧ fullBlock.pt[(0 : PageNo)] ≠ none :=
  ⟨⟨answers (fun _ => true) (by decide +kernel), rfl, 3, by decide⟩,
    ⟨answers (fun _ => true) (by decide +kernel), rfl, by decide, by decide⟩,
    answers (fun _ => true) (by decide +kernel), by decide +kernel, by decide +kernel⟩

theorem witness_FillCountRisesOncePerFreshFault :
    ∃ t, exec (.translate 256 false) (cold [1] []) = .next t ∧ t.stat.pageFaults = (cold [1] []).stat.pageFaults + 1 ∧
      (cold [1] []).fill.val < 128 := ⟨_, rfl, rfl, by decide⟩

theorem witness_OnlyAnEvictionInvalidatesAPage :
    ∃ t, exec (.translate 32768 false) fullBlock = .next t ∧ fullBlock.pt[(0 : PageNo)] = some 0 ∧
      fullBlock.fill.val = 128 ∧ fullBlock.resident[peekLeast fullBlock.rlF] = some 0 :=
  ⟨_, rfl, by decide +kernel, by decide +kernel, by decide +kernel⟩

theorem witness_TlbMappingsPersistUntilOverwritten :
    ∃ t, exec (.translate 0 false) fullBlock = .next t ∧ t.tlb[(0 : SlotNo)].page ≠ fullBlock.tlb[(0 : SlotNo)].page :=
  ⟨_, rfl, by decide +kernel⟩

theorem witness_FaultRegisterIsSticky :
    (∃ t, step { faulted with inbox := [.command .report] } = .next t ∧
      ({ faulted with inbox := [.command .report] } : State).inbox.head? ≠ some .reset) ∧
    (∃ t, step { State.reset with inbox := [.word 0x100000000000FF00] } = .next t ∧ State.reset.fault = none ∧
      t.fault ≠ none) :=
  ⟨⟨_, rfl, by decide⟩, ⟨_, rfl, by decide, by decide +kernel⟩⟩

/-- One word for each of the first four checks of rule R194 (boundary address 65536), and a REPORT; for the fifth, a fill
that the device fails and one that runs past BS_SIZE; and where no check applies, a fill that succeeds, a TLB hit and a hit
in the page table with a device that would fail. -/
theorem witness_ErrorPriority :
    (∃ t, step { faulted with inbox := [.word 0xF000000000000000] } = .next t) ∧
    (∃ t, step { faulted with inbox := [.word 0x1000000000010000] } = .next t) ∧
    (∃ t, step { State.reset with inbox := [.word 0x1000000200000000] } = .next t) ∧
    (∃ t, step { State.reset with inbox := [.word 0x1000000000010000] } = .next t) ∧
    (∃ t, step { State.reset with inbox := [.word 0x2000000000000000] } = .next t) ∧
    ((∃ t, step { State.reset with inbox := [.word 0x100000000000FFFF] } = .next t) ∧ FillFails 255 State.reset) ∧
    ((∃ t, step { failing with inbox := [.word 0x1000000000008000] } = .next t ∧ true = true) ∧
      FillFails 128 failing) ∧
    ((∃ t, step (cold [1] [.word 0x1000000000000100]) = .next t ∧ true = true) ∧ ¬ FillFails 1 (cold [1] [])) ∧
    ((∃ t, step { oneSlot with inbox := [.word 0x1000000000000705] } = .next t) ∧ ¬ FillFails 7 oneSlot) ∧
    (∃ t, step { failing with inbox := [.word 0x1000000000000005] } = .next t ∧ true = true) ∧ ¬ FillFails 0 failing :=
  ⟨⟨_, rfl⟩, ⟨_, rfl⟩, ⟨_, rfl⟩, ⟨_, rfl⟩, ⟨_, rfl⟩, ⟨⟨_, rfl⟩, by decide +kernel⟩,
    ⟨answers (fun _ => true) (by decide +kernel), by decide +kernel⟩,
    ⟨answers (fun _ => true) (by decide +kernel), by decide +kernel⟩, ⟨⟨_, rfl⟩, by decide +kernel⟩,
    answers (fun _ => true) (by decide +kernel), by decide +kernel⟩

/-- A word and an abstract command that answer, and one of each that blocks. -/
theorem witness_StepRunsTheDecodedCommand :
    (decode 0x2000000000000000 = .command .report ∧
      ∃ t r ws, exec .report State.reset = .next t ∧ t.response = some r ∧ r.pack = some ws) ∧
    (decode 0x1000000000000000 = .command (.translate 0 false) ∧
      ∃ e, exec (.translate 0 false) silent = .fault e) :=
  ⟨⟨by decide, _, _, _, rfl, rfl, rfl⟩, ⟨by decide, _, rfl⟩⟩

theorem witness_IllegalWordsAreAnsweredAndChangeNothing :
    ({ faulted with inbox := [.word 0] } : State).inbox = .word 0 :: [] ∧ decode 0 = .illegal 0 := by decide

theorem witness_ResetPutsEveryPieceOfStateIntoItsResetValue :
    ({ faulted with inbox := [.reset] } : State).inbox = .reset :: [] ∧
      (∃ t, step faulted = .next t ∧ faulted.inbox.head? ≠ some .reset ∧ faulted.fault ≠ none) ∧
      ∃ t, step oneSlot = .next t ∧ oneSlot.inbox.head? ≠ some .reset ∧ oneSlot.tlb[(3 : SlotNo)].page ≠ none :=
  ⟨rfl, ⟨_, rfl, by decide, by decide⟩, ⟨_, rfl, by decide, by decide⟩⟩

theorem witness_OneReplyPerCommandInOrder :
    (∃ t, step { oneSlot with inbox := [.word 0] } = .next t) ∧
      (∃ t, step { oneSlot with inbox := [.command .report] } = .next t) ∧
      ∃ t, step { oneSlot with inbox := [.attach (xorStore [])] } = .next t := ⟨⟨_, rfl⟩, ⟨_, rfl⟩, ⟨_, rfl⟩⟩

theorem witness_AStoreIsAttachedOnlyBeforeTheFirstFill :
    ({ State.reset with inbox := [.attach (xorStore [])] } : State).inbox = .attach (xorStore []) :: [] ∧
      State.reset.fill.val = 0 ∧ fullBlock.fill.val ≠ 0 := ⟨rfl, by decide, by decide⟩

theorem witness_ParametersStayFixed :
    ∃ t, step { oneSlot with inbox := [.reset] } = .next t ∧
      ∀ store, ({ oneSlot with inbox := [.reset] } : State).inbox.head? ≠ some (.attach store) :=
  ⟨_, rfl, by simp⟩

theorem witness_TheBlockNeverHangsIfReadsReturn :
    ReadsReturn { State.reset with draws := [.fails, .answers] } := by decide

theorem zeroMemory_read (n pa : Nat) : (zeroMemory n).read pa = if pa < n then some 0 else none := by
  have key : ∀ l : List Nat, List.lookup pa (l.map fun a => (a, (0 : Byte))) = if pa ∈ l then some 0 else none := by
    intro l
    induction l with
    | nil => simp
    | cons a l ih =>
      rw [List.map_cons, lookup_cell, ih]
      by_cases h : pa = a <;> simp [h]
  rw [Memory.read, zeroMemory, key]
  simp

theorem zeroMemory_wf (n : Nat) (h : n ≤ pspace) : (zeroMemory n).wf := by
  refine ⟨?_, ?_⟩
  · rw [zeroMemory, List.pairwise_map]
    exact List.pairwise_lt_range
  · intro c hc
    obtain ⟨a, ha, rfl⟩ := List.mem_map.mp hc
    exact Nat.lt_of_lt_of_le (List.mem_range.mp ha) h

theorem fullBlock_mem : fullBlock.mem = zeroMemory 32768 := by
  simp only [fullBlock]

/-- Frame memory of `fullBlock` holds the byte 0 at every physical address. -/
theorem fullBlock_read (pa : Nat) : fullBlock.mem.read pa = if pa < 32768 then some 0 else none := by
  rw [fullBlock_mem, zeroMemory_read]

theorem identityMap_get {m n : Nat} (i : Fin n) :
    (identityMap (m := m) n)[i] = if h : i.val < m then some ⟨i.val, h⟩ else none := by
  simp [identityMap]

theorem fullBlock_pt (p : PageNo) (f : FrameNo) : fullBlock.pt[p] = some f ↔ p.val = f.val := by
  have hp : fullBlock.pt[p] = if h : p.val < 128 then some ⟨p.val, h⟩ else none := identityMap_get p
  rw [hp]
  by_cases h : p.val < 128
  · simp [h, Fin.ext_iff]
  · have hf : f.val < 128 := f.isLt
    simp [h]
    omega

theorem fullBlock_resident (f : FrameNo) :
    fullBlock.resident[f] = some ⟨f.val, Nat.lt_trans f.isLt (by decide)⟩ := by
  have hf : f.val < 256 := Nat.lt_trans f.isLt (by decide)
  have h : fullBlock.resident[f] = if h : f.val < 256 then some ⟨f.val, h⟩ else none := identityMap_get f
  rw [h, dif_pos hf]

/-- The invariant holds of a block in which every frame is filled: it excludes no eviction. -/
theorem fullBlock_inv : Inv fullBlock := by
  have live : liveSlots fullBlock = [] := by decide +kernel
  refine ⟨by decide +kernel, by decide +kernel, by decide +kernel, by decide +kernel,
    fullBlock_mem ▸ zeroMemory_wf 32768 (by decide), fun _ => ?_, by decide +kernel, by decide +kernel, by decide +kernel⟩
  · refine ⟨by decide +kernel, ?_, ?_, ?_, ?_, ?_, ?_, by decide +kernel, ?_, by decide +kernel⟩
    · intro j k h
      exact absurd h (by revert j; decide +kernel)
    · intro k p h
      exact absurd h (by revert k p; decide +kernel)
    · intro p f
      rw [fullBlock_pt, fullBlock_resident]
      have hf : f.val < 128 := f.isLt
      constructor
      · intro h
        exact ⟨hf, congrArg some (Fin.ext h.symm)⟩
      · rintro ⟨-, h⟩
        exact (congrArg Fin.val (Option.some.inj h)).symm
    · intro f
      rw [fullBlock_resident]
      exact ⟨fun _ => f.isLt, fun _ => rfl⟩
    · intro f p o _ _
      have hf : f.val < 128 := f.isLt
      have ho : o.val < 256 := o.isLt
      rw [fullBlock_read, if_pos (by show f.val * 256 + o.val < 32768; omega)]
      rfl
    · intro pa h
      have h' : 128 * 256 ≤ pa := h
      rw [fullBlock_read, if_neg (by omega)]
    · rw [live]
      exact List.nil_suffix

theorem witness_EveryStepKeepsTheInvariant :
    Inv fullBlock ∧ ∃ t, step fullBlock = .next t := ⟨fullBlock_inv, _, rfl⟩

theorem witness_TranslationsReturnTheBackingStoresBytes :
    Inv fullBlock ∧ fullBlock.fault = none ∧
      ∃ t pa v, exec (.translate 5 false) fullBlock = .next t ∧ t.response = some (.translated pa v) :=
  ⟨fullBlock_inv, rfl, _, _, _, rfl, rfl⟩

theorem witness_EveryAddressInRangeIsTranslated :
    Inv fullBlock ∧ fullBlock.fault = none ∧ 65535 ≤ 65535 ∧ bsMin ≤ fullBlock.bs.size ∧ nextDraw fullBlock = .answers :=
  ⟨fullBlock_inv, rfl, by decide, by decide, rfl⟩

theorem witness_ATranslatedPageIsTheMostRecentSlot :
    Inv fullBlock ∧ ∃ t, exec (.translate ((0 : PageNo).val * 256 + (5 : Offset).val) false) fullBlock = .next t ∧
      (t.response == some (.translated 5 0)) = true :=
  ⟨fullBlock_inv, answers (fun t => t.response == some (.translated 5 0)) (by decide +kernel)⟩

theorem witness_EvictionVictimsAreInNoTlbSlot :
    Inv fullBlock ∧ fullBlock.fault = none ∧ fullBlock.fill.val = 128 := ⟨fullBlock_inv, rfl, rfl⟩

theorem witness_ResponsesDoNotDependOnTheSeeds :
    OrderWf (ascendingOrder tlbSlots) ∧ OrderWf (promote (ascendingOrder tlbSlots) 0) ∧
      OrderWf (ascendingOrder numFrames) ∧ OrderWf (promote (ascendingOrder numFrames) 0) :=
  ⟨ascendingOrder_wf _, promote_wf (ascendingOrder_wf _) 0, ascendingOrder_wf _, promote_wf (ascendingOrder_wf _) 0⟩

end Sys2Proof.Tests
end

section
/-! SUPPORT. One step as its parts: taking the input, performing it, and replying (rules R13, R93, R99, R175). Proofs
about steps cite these and do not unfold `step`, `perform` or the replies. -/

namespace Sys2Proof.Machine

variable {s t : State} {rest : List HostInput}

/-- A step takes the oldest input from the inbox and performs it. -/
theorem step_of_inbox_cons {input : HostInput} (h : s.inbox = input :: rest) :
    step s = perform input { s with inbox := rest } := by
  simp only [step, h]

theorem performDecoded_command (i : Instr) (s : State) :
    performDecoded (.command i) s = replyWords (exec i s) := rfl

theorem perform_command (i : Instr) (s : State) : perform (.command i) s = replyAbstract (exec i s) := rfl

theorem perform_word (w : Word64) (s : State) : perform (.word w) s = performDecoded (decode w) s := rfl

/-- A step on a word that decodes to a command. -/
theorem step_of_word {w : Word64} {i : Instr} (h : s.inbox = .word w :: rest) (hw : decode w = .command i) :
    step s = replyWords (exec i { s with inbox := rest }) := by
  rw [step_of_inbox_cons h, perform_word, hw, performDecoded_command]

/-- A step on an abstract command. -/
theorem step_of_command {i : Instr} (h : s.inbox = .command i :: rest) :
    step s = replyAbstract (exec i { s with inbox := rest }) := by
  rw [step_of_inbox_cons h, perform_command]

/-! ### The replies -/

@[simp] theorem replyWords_fault (e : Fault) : replyWords (.fault e) = .fault e := rfl

@[simp] theorem replyAbstract_fault (e : Fault) : replyAbstract (.fault e) = .fault e := rfl

theorem replyWords_next {r : Resp} {ws : List Word64} (hr : t.response = some r) (hws : r.pack = some ws) :
    replyWords (.next t) = .next (post (.words ws) t) := by
  simp only [replyWords, hr, hws]

theorem replyAbstract_next {r : Resp} (hr : t.response = some r) :
    replyAbstract (.next t) = .next (post (.response r) t) := by
  simp only [replyAbstract, hr]

end Sys2Proof.Machine
end

section
/-! The statements of 00_scope.md. -/

namespace Sys2Proof.Machine

/-- Settles O1: rule R8's constraints are among the facts of `ParametersAgree`, and the five values are the constants'
own. -/
theorem parametersSatisfyTheirConstraints : Obligations.ParametersSatisfyTheirConstraints := by
  obtain ⟨hspace, hslots, hslotsFrames, hframesPages, -⟩ : ParametersAgree := by decide
  exact ⟨hspace, hslots, hslotsFrames, hframesPages, rfl, rfl, rfl, rfl, rfl⟩

/-- Settles O42: a step is the reply to what `exec` comes to, and a reply keeps a stop and posts an answer. -/
theorem stepRunsTheDecodedCommand : Obligations.StepRunsTheDecodedCommand := by
  intro s rest i
  constructor
  case left =>
    intro w hin hw
    rw [step_of_word hin hw]
    constructor
    · intro t r ws ht hr hws
      rw [ht, replyWords_next hr hws, post]
    · intro e he
      rw [he, replyWords_fault]
  case right =>
    intro hin
    rw [step_of_command hin]
    constructor
    · intro t r ht hr
      rw [ht, replyAbstract_next hr, post]
    · intro e he
      rw [he, replyAbstract_fault]

end Sys2Proof.Machine
end

section
/-! SUPPORT. What step 2 of TRANSLATE, a command and a step come to, one constructor a case. Proofs about every command
or every step take these cases apart and do not unfold `exec` or `step`. -/

namespace Sys2Proof.Machine

variable {s t u : State} {page : PageNo} {k : SlotNo} {frame : FrameNo}

/-! ### A page fault -/

/-- The state after a fill that succeeded: the page stands in the target frame and is mapped (rule R152). -/
def filled (page : PageNo) (s : State) : State :=
  fillAndMap page (fillTarget s) (s.bs.pageAt (pageBase page)) (afterTarget s)

/-- The state after a fill that failed (rule R153). -/
def fillFailed (page : PageNo) (s : State) : State :=
  abandonFill page (fillTarget s) s.reads (afterTarget s)

/-- Counting the page fault does not change which frame is the target. -/
@[simp] theorem fillTarget_countPageFault (s : State) : fillTarget (countPageFault s) = fillTarget s := rfl

@[simp] theorem afterTarget_tlb (s : State) : (afterTarget s).tlb = s.tlb := by simp [afterTarget]
@[simp] theorem afterTarget_rlT (s : State) : (afterTarget s).rlT = s.rlT := by simp [afterTarget]
@[simp] theorem afterTarget_mem (s : State) : (afterTarget s).mem = s.mem := by simp [afterTarget]
@[simp] theorem afterTarget_resident (s : State) : (afterTarget s).resident = s.resident := by simp [afterTarget]
@[simp] theorem afterTarget_rlF (s : State) : (afterTarget s).rlF = s.rlF := by simp [afterTarget]
@[simp] theorem afterTarget_stat (s : State) :
    (afterTarget s).stat = { s.stat with pageFaults := s.stat.pageFaults + 1 } := by simp [afterTarget]
@[simp] theorem afterTarget_fault (s : State) : (afterTarget s).fault = s.fault := by simp [afterTarget]
@[simp] theorem afterTarget_tlbSeed (s : State) : (afterTarget s).tlbSeed = s.tlbSeed := by simp [afterTarget]
@[simp] theorem afterTarget_frameSeed (s : State) : (afterTarget s).frameSeed = s.frameSeed := by simp [afterTarget]
@[simp] theorem afterTarget_bs (s : State) : (afterTarget s).bs = s.bs := by simp [afterTarget]
@[simp] theorem afterTarget_draws (s : State) : (afterTarget s).draws = s.draws := by simp [afterTarget]

/-- The fill count after a page fault (rules R42, R151). -/
theorem afterTarget_fill (s : State) :
    (afterTarget s).fill.val = if s.fill.val < numFrames then s.fill.val + 1 else s.fill.val :=
  takeTarget_fill (s := countPageFault s)

@[simp] theorem filled_tlb (s : State) : (filled page s).tlb = s.tlb := by simp [filled, fillAndMap]
@[simp] theorem filled_rlT (s : State) : (filled page s).rlT = s.rlT := by simp [filled, fillAndMap]
@[simp] theorem filled_pt (s : State) :
    (filled page s).pt = (afterTarget s).pt.set page (some (fillTarget s)) := by simp [filled, fillAndMap]
@[simp] theorem filled_mem (s : State) :
    (filled page s).mem = s.mem.write (frameBase (fillTarget s)) (s.bs.pageAt (pageBase page)) := by
  simp [filled, fillAndMap]
@[simp] theorem filled_resident (s : State) :
    (filled page s).resident = s.resident.set (fillTarget s) (some page) := by simp [filled, fillAndMap]
@[simp] theorem filled_fill (s : State) : (filled page s).fill = (afterTarget s).fill := by simp [filled, fillAndMap]
@[simp] theorem filled_rlF (s : State) : (filled page s).rlF = s.rlF := by simp [filled, fillAndMap]
@[simp] theorem filled_stat (s : State) :
    (filled page s).stat = { s.stat with pageFaults := s.stat.pageFaults + 1 } := by simp [filled, fillAndMap]
@[simp] theorem filled_fault (s : State) : (filled page s).fault = s.fault := by simp [filled, fillAndMap]
@[simp] theorem filled_tlbSeed (s : State) : (filled page s).tlbSeed = s.tlbSeed := by simp [filled, fillAndMap]
@[simp] theorem filled_frameSeed (s : State) : (filled page s).frameSeed = s.frameSeed := by simp [filled, fillAndMap]
@[simp] theorem filled_bs (s : State) : (filled page s).bs = s.bs := by simp [filled, fillAndMap]
@[simp] theorem filled_draws (s : State) : (filled page s).draws = s.draws := by simp [filled, fillAndMap]

@[simp] theorem fillFailed_rlT (s : State) : (fillFailed page s).rlT = s.rlT := by simp [fillFailed, abandonFill]
@[simp] theorem fillFailed_mem (s : State) :
    (fillFailed page s).mem = s.mem.write (frameBase (fillTarget s)) (failedFillBytes s.reads) := by
  simp [fillFailed, abandonFill]
@[simp] theorem fillFailed_fill (s : State) : (fillFailed page s).fill = (afterTarget s).fill := by
  simp [fillFailed, abandonFill]
@[simp] theorem fillFailed_rlF (s : State) : (fillFailed page s).rlF = s.rlF := by simp [fillFailed, abandonFill]
@[simp] theorem fillFailed_stat (s : State) :
    (fillFailed page s).stat = { s.stat with pageFaults := s.stat.pageFaults + 1 } := by
  simp [fillFailed, abandonFill]
@[simp] theorem fillFailed_fault (s : State) : (fillFailed page s).fault = some ⟨.backingStoreIOError, page⟩ := by
  simp [fillFailed, abandonFill]
@[simp] theorem fillFailed_tlbSeed (s : State) : (fillFailed page s).tlbSeed = s.tlbSeed := by
  simp [fillFailed, abandonFill]
@[simp] theorem fillFailed_frameSeed (s : State) : (fillFailed page s).frameSeed = s.frameSeed := by
  simp [fillFailed, abandonFill]
@[simp] theorem fillFailed_bs (s : State) : (fillFailed page s).bs = s.bs := by simp [fillFailed, abandonFill]
@[simp] theorem fillFailed_draws (s : State) : (fillFailed page s).draws = s.draws := by
  simp [fillFailed, abandonFill]

/-! ### TRANSLATE steps 3 to 7 -/

@[simp] theorem complete_tlb (o : Offset) : (complete k frame o u).tlb = u.tlb := by simp [complete]
@[simp] theorem complete_rlT (o : Offset) : (complete k frame o u).rlT = promote u.rlT k := by simp [complete]
@[simp] theorem complete_pt (o : Offset) : (complete k frame o u).pt = u.pt := by simp [complete]
@[simp] theorem complete_mem (o : Offset) : (complete k frame o u).mem = u.mem := by simp [complete]
@[simp] theorem complete_resident (o : Offset) : (complete k frame o u).resident = u.resident := by simp [complete]
@[simp] theorem complete_fill (o : Offset) : (complete k frame o u).fill = u.fill := by simp [complete]
@[simp] theorem complete_rlF (o : Offset) : (complete k frame o u).rlF = promote u.rlF frame := by simp [complete]
@[simp] theorem complete_stat (o : Offset) :
    (complete k frame o u).stat = { u.stat with translated := u.stat.translated + 1 } := by simp [complete]
@[simp] theorem complete_fault (o : Offset) : (complete k frame o u).fault = u.fault := by simp [complete]
@[simp] theorem complete_tlbSeed (o : Offset) : (complete k frame o u).tlbSeed = u.tlbSeed := by simp [complete]
@[simp] theorem complete_frameSeed (o : Offset) : (complete k frame o u).frameSeed = u.frameSeed := by simp [complete]
@[simp] theorem complete_bs (o : Offset) : (complete k frame o u).bs = u.bs := by simp [complete]
@[simp] theorem complete_draws (o : Offset) : (complete k frame o u).draws = u.draws := by simp [complete]
@[simp] theorem complete_response (o : Offset) :
    (complete k frame o u).response = some (.translated (composePhysical frame o) (readByte frame o u)) := by
  simp [complete]

/-! ### The cases -/

/-- What step 2 of TRANSLATE is done with: the slot, the frame and the state after it (rules R130-R133, R150, R165). -/
inductive Served (page : PageNo) (s : State) : SlotNo → FrameNo → State → Prop where
  /-- A slot held the page. -/
  | hit {k : SlotNo} (holds : s.tlb[k].page = some page) : Served page s k s.tlb[k].frame (countTlbHit s)
  /-- No slot held the page and it was valid. -/
  | walk {frame : FrameNo} (missed : ∀ j : SlotNo, s.tlb[j].page ≠ some page) (valid : s.pt[page] = some frame) :
      Served page s (peekLeast s.rlT) frame (install (peekLeast s.rlT) page frame s)
  /-- No slot held the page, it was invalid, and its fill succeeded. -/
  | fill (missed : ∀ j : SlotNo, s.tlb[j].page ≠ some page) (invalid : s.pt[page] = none) :
      Served page s (peekLeast s.rlT) (fillTarget s) (install (peekLeast s.rlT) page (fillTarget s) (filled page s))

/-- Step 2 of TRANSLATE is done in one of the three ways. -/
theorem resolve_served (h : resolve page s = .done (k, frame) u) : Served page s k frame u := by
  obtain ⟨found, rfl, rfl⟩ | ⟨missed, v, resident, rfl, rfl⟩ := resolve_done h
  · exact .hit (findSlot_eq_some.mp found).1
  · rw [findSlot_eq_none] at missed
    obtain ⟨valid, rfl⟩ | ⟨invalid, -, rfl, rfl⟩ := ensureResident_done resident
    · exact .walk missed valid
    · change Served page s (peekLeast (filled page s).rlT) _
        (install (peekLeast (filled page s).rlT) page _ (filled page s))
      rw [filled_rlT]
      exact .fill missed invalid

/-- How a command can answer (rules R165-R170). -/
inductive Answered (i : Instr) (s : State) : State → Prop where
  /-- It answers and does nothing else; it is no TRANSLATE in range with FAULT clear. -/
  | plain (r : Resp) (untranslated : ∀ pa v, r ≠ .translated pa v)
      (rejected : ∀ (p : PageNo) (o : Offset) (w : Bool), i = .translate (p.val * 256 + o.val) w → s.fault ≠ none) :
      Answered i s (respond r s)
  /-- It is a TRANSLATE that completes. -/
  | translated {p : PageNo} {o : Offset} {w : Bool} {k : SlotNo} {frame : FrameNo} {u : State}
      (command : i = .translate (p.val * 256 + o.val) w) (clear : s.fault = none) (served : Served p s k frame u) :
      Answered i s (complete k frame o u)
  /-- It is a TRANSLATE whose fill fails. -/
  | failed {p : PageNo} {o : Offset} {w : Bool} (command : i = .translate (p.val * 256 + o.val) w)
      (clear : s.fault = none) (missed : ∀ j : SlotNo, s.tlb[j].page ≠ some p) (invalid : s.pt[p] = none) :
      Answered i s (respond (.errBackingStoreIO p) (fillFailed p s))

/-- With FAULT clear, a TRANSLATE of a page and an offset completes or its fill fails. -/
theorem translate_answered {p : PageNo} {o : Offset} {w : Bool} (clear : s.fault = none)
    (h : exec (.translate (p.val * 256 + o.val) w) s = .next t) :
    Answered (.translate (p.val * 256 + o.val) w) s t := by
  rw [exec_translate_address p o w clear] at h
  cases hr : resolve p s with
  | done served u =>
    rw [hr] at h
    injection h with h
    exact h ▸ .translated rfl clear (resolve_served hr)
  | raised e u =>
    obtain ⟨missed, raised⟩ := resolve_raised hr
    obtain ⟨invalid, -, rfl, rfl⟩ := ensureResident_raised raised
    rw [hr] at h
    injection h with h
    exact h ▸ .failed rfl clear (findSlot_eq_none.mp missed) invalid
  | stuck => simp [hr] at h

/-- A command that answers answers in one of the three ways. -/
theorem exec_answered {i : Instr} (h : exec i s = .next t) : Answered i s t := by
  by_cases inRange : ∃ (p : PageNo) (o : Offset) (w : Bool), i = .translate (p.val * 256 + o.val) w ∧ s.fault = none
  · obtain ⟨p, o, w, rfl, clear⟩ := inRange
    exact translate_answered clear h
  · obtain ⟨r, rfl, untranslated⟩ | ⟨addr, w, lt, k, frame, u, rfl, clear, -, -⟩ | ⟨addr, w, lt, u, rfl, clear, -, -⟩ :=
      exec_next h
    · exact .plain r untranslated fun p o w command clear => inRange ⟨p, o, w, command, clear⟩
    all_goals exact absurd ⟨_, _, w, congrArg (Instr.translate · w) (address_split addr lt), clear⟩ inRange

/-- The page of an address is determined. -/
theorem page_of_translate_eq {p q : PageNo} {o o' : Offset} {w w' : Bool}
    (h : Instr.translate (p.val * 256 + o.val) w = .translate (q.val * 256 + o'.val) w') : p = q := by
  have ho : o.val < 256 := o.isLt
  have ho' : o'.val < 256 := o'.isLt
  injection h with h
  exact Fin.ext (by omega)

/-- What one step did with the host's next input (rules R13, R93, R99, R172, R175, R215, R219). -/
inductive Stepped (s : State) : State → Prop where
  | idle (empty : s.inbox = []) : Stepped s s
  | reset {rest : List HostInput} (input : s.inbox = .reset :: rest) :
      Stepped s (applyReset { s with inbox := rest })
  | attach {store : BackingStore} {rest : List HostInput} (input : s.inbox = .attach store :: rest)
      (unfilled : s.fill = 0) : Stepped s { s with inbox := rest, bs := store }
  /-- A command that came as a word is answered in words. -/
  | word {w : Word64} {rest : List HostInput} {i : Instr} {t : State} {r : Resp} {ws : List Word64}
      (input : s.inbox = .word w :: rest) (decoded : decode w = .command i)
      (answer : exec i { s with inbox := rest } = .next t) (response : t.response = some r)
      (packed : r.pack = some ws) : Stepped s (post (.words ws) t)
  /-- An abstract command is answered with the response itself. -/
  | command {rest : List HostInput} {i : Instr} {t : State} {r : Resp} (input : s.inbox = .command i :: rest)
      (answer : exec i { s with inbox := rest } = .next t) (response : t.response = some r) :
      Stepped s (post (.response r) t)
  | illegal {w v : Word64} {rest : List HostInput} {ws : List Word64} (input : s.inbox = .word w :: rest)
      (decoded : decode w = .illegal v) (packed : Resp.errIllegalCommand.pack = some ws) :
      Stepped s (post (.words ws) (respond .errIllegalCommand { s with inbox := rest }))

/-- A command that answers has set its response. -/
theorem exec_response {i : Instr} (h : exec i s = .next t) : ∃ r, t.response = some r := by
  cases exec_answered h with
  | plain r => exact ⟨r, rfl⟩
  | translated => exact ⟨_, rfl⟩
  | failed => exact ⟨_, rfl⟩

/-- A reply in words that goes on posts the words of the response. -/
theorem replyWords_eq_next {r : Resp} (hr : u.response = some r) (h : replyWords (.next u) = .next t) :
    ∃ ws, r.pack = some ws ∧ t = post (.words ws) u := by
  simp only [replyWords, hr] at h
  cases hws : r.pack with
  | none => simp [hws] at h
  | some ws =>
    simp only [hws] at h
    injection h with h
    exact ⟨ws, rfl, h.symm⟩

theorem performDecoded_illegal (w : Word64) (s : State) :
    performDecoded (.illegal w) s = replyWords (.next (respond .errIllegalCommand s)) := rfl

/-- A store is attached only while the fill count is 0 (log 9). -/
theorem attachStore_eq_next {store : BackingStore} (h : attachStore store s = .next t) :
    s.fill = 0 ∧ t = { s with bs := store } := by
  unfold attachStore at h
  split at h
  · rename_i unfilled
    injection h with h
    exact ⟨unfilled, h.symm⟩
  · cases h

/-- A step that goes on is one of the six kinds. -/
theorem step_stepped (h : step s = .next t) : Stepped s t := by
  cases input : s.inbox with
  | nil =>
    simp only [step, input] at h
    injection h with h
    exact h ▸ .idle input
  | cons next rest =>
    rw [step_of_inbox_cons input] at h
    cases next with
    | reset =>
      injection h with h
      exact h ▸ .reset input
    | attach store =>
      obtain ⟨unfilled, rfl⟩ := attachStore_eq_next h
      exact .attach input unfilled
    | command i =>
      rw [perform_command] at h
      cases answer : exec i { s with inbox := rest } with
      | next u =>
        obtain ⟨r, response⟩ := exec_response answer
        rw [answer, replyAbstract_next response] at h
        injection h with h
        exact h ▸ .command input answer response
      | fault e => simp [answer] at h
      | refused e => simp [answer, replyAbstract] at h
    | word w =>
      rw [perform_word] at h
      cases decoded : decode w with
      | command i =>
        rw [decoded, performDecoded_command] at h
        cases answer : exec i { s with inbox := rest } with
        | next u =>
          obtain ⟨r, response⟩ := exec_response answer
          rw [answer] at h
          obtain ⟨ws, packed, rfl⟩ := replyWords_eq_next response h
          exact .word input decoded answer response packed
        | fault e => simp [answer] at h
        | refused e => simp [answer, replyWords] at h
      | illegal v =>
        rw [decoded, performDecoded_illegal] at h
        obtain ⟨ws, packed, rfl⟩ := replyWords_eq_next rfl h
        exact .illegal input decoded packed

end Sys2Proof.Machine
end

section
/-! SUPPORT. Paging: the page table, the resident pages, the fill count and frame memory agree (rules R48, R146, R158),
and a page fault keeps it so. -/

namespace Sys2Proof.Machine

variable {s t u : State} {page : PageNo} {k : SlotNo} {frame : FrameNo}

/-- Reading an entry of a table after a write to one of its entries. -/
theorem vector_set_get {α : Type} {n : Nat} (v : Vector α n) (i j : Fin n) (x : α) :
    (v.set i x)[j] = if j = i then x else v[j] := by
  simp [Vector.getElem_set, Fin.ext_iff, eq_comm]

/-- The bytes of a frame lie in that frame only (rule R62). -/
theorem in_frame_iff (f g : FrameNo) (o : Offset) :
    frameBase f ≤ frameBase g + o.val ∧ frameBase g + o.val < frameBase f + pageSize ↔ g = f := by
  have ho : o.val < 256 := o.isLt
  rw [Fin.ext_iff]
  change f.val * 256 ≤ g.val * 256 + o.val ∧ g.val * 256 + o.val < f.val * 256 + 256 ↔ g.val = f.val
  omega

/-- A byte of a frame after a write of a whole frame (rule R68). -/
theorem Memory.read_write_frame (m : Memory) (f g : FrameNo) (o : Offset) {bytes : List Byte}
    (whole : bytes.length = pageSize) :
    (m.write (frameBase f) bytes).read (frameBase g + o.val) =
      if g = f then bytes[o.val]? else m.read (frameBase g + o.val) := by
  rw [Memory.read_write, whole]
  by_cases same : g = f
  · rw [if_pos ((in_frame_iff f g o).mpr same), if_pos same, same, Nat.add_sub_cancel_left]
  · rw [if_neg (same ∘ (in_frame_iff f g o).mp), if_neg same]

/-- A frame below a fill count ends where the fresh frames begin, or before. -/
theorem frame_end_le {f : FrameNo} {fill : Nat} (h : f.val < fill) : frameBase f + pageSize ≤ fill * pageSize := by
  change f.val * 256 + 256 ≤ fill * 256
  omega

/-- The frames handed out after a page fault: those before it and the target (rules R42, R151). -/
theorem lt_afterTarget_fill (s : State) (g : FrameNo) :
    g.val < (afterTarget s).fill.val ↔ g.val < s.fill.val ∨ g = fillTarget s := by
  have hg : g.val < 128 := g.isLt
  rw [afterTarget_fill, Fin.ext_iff]
  by_cases fresh : s.fill.val < numFrames
  · rw [if_pos fresh, (takeTarget_fresh fresh).1]
    omega
  · rw [if_neg fresh]
    omega

/-- The page table after a target has been chosen (rule R151). -/
theorem afterTarget_pt_eq (s : State) : (afterTarget s).pt =
    if s.fill.val < numFrames then s.pt
    else match s.resident[fillTarget s] with
      | some oldPage => s.pt.set oldPage none
      | none => s.pt :=
  takeTarget_pt (s := countPageFault s)

/-- The part of `Healthy` that speaks of no TLB slot and of no recency order. -/
structure PagesAgree (s : State) : Prop where
  valid_iff_resident : ∀ (p : PageNo) (f : FrameNo),
    s.pt[p] = some f ↔ f.val < s.fill.val ∧ s.resident[f] = some p
  resident_iff_filled : ∀ f : FrameNo, s.resident[f].isSome ↔ f.val < s.fill.val
  frames_hold_their_pages : ∀ (f : FrameNo) (p : PageNo) (o : Offset), f.val < s.fill.val → s.resident[f] = some p →
    s.mem.read (frameBase f + o.val) = some (s.bs.byteAt (pageBase p + o.val))
  fresh_frames_unwritten : ∀ pa : Nat, s.fill.val * pageSize ≤ pa → s.mem.read pa = none

theorem Healthy.pages (h : Healthy s) : PagesAgree s :=
  ⟨h.valid_iff_resident, h.resident_iff_filled, h.frames_hold_their_pages, h.fresh_frames_unwritten⟩

namespace PagesAgree

/-- Agreement is a fact about five fields. -/
theorem of_eq (h : PagesAgree s) (pt : t.pt = s.pt) (mem : t.mem = s.mem) (resident : t.resident = s.resident)
    (fill : t.fill = s.fill) (bs : t.bs = s.bs) : PagesAgree t := by
  obtain ⟨valid, filled, bytes, fresh⟩ := h
  rw [← pt, ← resident, ← fill] at valid
  rw [← resident, ← fill] at filled
  rw [← resident, ← fill, ← mem, ← bs] at bytes
  rw [← fill, ← mem] at fresh
  exact ⟨valid, filled, bytes, fresh⟩

/-- A valid page stands in a frame below the fill count. -/
theorem valid_lt_fill (h : PagesAgree s) {p : PageNo} (valid : s.pt[p] = some frame) : frame.val < s.fill.val :=
  ((h.valid_iff_resident p frame).mp valid).1

/-- No two valid pages share a frame (rule R48). -/
theorem page_unique (h : PagesAgree s) {p q : PageNo} (hp : s.pt[p] = some frame) (hq : s.pt[q] = some frame) :
    p = q := by
  have := ((h.valid_iff_resident p frame).mp hp).2
  exact Option.some.inj (this.symm.trans ((h.valid_iff_resident q frame).mp hq).2)

/-- Choosing a target makes exactly the page that stands in it invalid; in a fresh one none stands (rules R145, R151). -/
theorem afterTarget_pt (h : PagesAgree s) (q : PageNo) :
    (afterTarget s).pt[q] = if s.pt[q] = some (fillTarget s) then none else s.pt[q] := by
  rw [afterTarget_pt_eq]
  by_cases fresh : s.fill.val < numFrames
  · have : s.pt[q] ≠ some (fillTarget s) := fun valid =>
      Nat.lt_irrefl _ ((takeTarget_fresh fresh).1 ▸ h.valid_lt_fill valid)
    rw [if_pos fresh, if_neg this]
  · have below : (fillTarget s).val < s.fill.val := Nat.lt_of_lt_of_le (fillTarget s).isLt (Nat.le_of_not_lt fresh)
    rw [if_neg fresh]
    obtain ⟨old, hold⟩ := Option.isSome_iff_exists.mp ((h.resident_iff_filled (fillTarget s)).mpr below)
    have victim : s.pt[q] = some (fillTarget s) ↔ q = old := by
      rw [h.valid_iff_resident, hold, Option.some.injEq, eq_comm (a := old)]
      exact and_iff_right below
    simp only [hold, vector_set_get, victim]

/-- A page fault whose fill succeeds keeps the pages in agreement (rules R146, R152, R158). -/
theorem filled (h : PagesAgree s) (invalid : s.pt[page] = none) : PagesAgree (filled page s) where
  valid_iff_resident p f := by
    simp only [filled_pt, filled_fill, filled_resident, vector_set_get, lt_afterTarget_fill, h.afterTarget_pt]
    have before := h.valid_iff_resident p f
    by_cases samePage : p = page <;> by_cases sameFrame : f = fillTarget s
    · simp [samePage, sameFrame]
    · rw [samePage, invalid] at before
      simpa [samePage, sameFrame, Ne.symm sameFrame] using before
    · have gone : (if s.pt[p] = some f then none else s.pt[p]) ≠ some f := by
        split
        · exact nofun
        · assumption
      rw [if_neg samePage, if_pos sameFrame, ← sameFrame]
      exact iff_of_false gone fun same => samePage (Option.some.inj same.2).symm
    · have kept : (if s.pt[p] = some (fillTarget s) then none else s.pt[p]) = some f ↔ s.pt[p] = some f := by
        split
        next here => simp [here, Ne.symm sameFrame]
        next => rfl
      rw [if_neg samePage, if_neg sameFrame, or_iff_left sameFrame, kept, before]
  resident_iff_filled f := by
    simp only [filled_fill, filled_resident, vector_set_get, lt_afterTarget_fill]
    by_cases sameFrame : f = fillTarget s
    · simp [sameFrame]
    · rw [if_neg sameFrame, or_iff_left sameFrame]
      exact h.resident_iff_filled f
  frames_hold_their_pages f p o handedOut holds := by
    simp only [filled_fill, filled_resident, vector_set_get, lt_afterTarget_fill] at handedOut holds
    rw [filled_mem, filled_bs, Memory.read_write_frame _ _ _ _ (BackingStore.pageAt_length _ _)]
    by_cases sameFrame : f = fillTarget s
    · obtain rfl : page = p := by simpa [sameFrame] using holds
      rw [if_pos sameFrame, BackingStore.pageAt_getElem? _ _ _ o.isLt]
    · rw [if_neg sameFrame]
      rw [if_neg sameFrame] at holds
      exact h.frames_hold_their_pages f p o (handedOut.resolve_right sameFrame) holds
  fresh_frames_unwritten pa fresh := by
    rw [filled_fill] at fresh
    have above := (frame_end_le ((lt_afterTarget_fill s _).mpr (.inr rfl))).trans fresh
    have grows : s.fill.val ≤ (afterTarget s).fill.val := (takeTarget_fill_le (s := countPageFault s)).1
    rw [filled_mem, Memory.read_write, BackingStore.pageAt_length, if_neg fun inside => absurd inside.2 above.not_gt]
    exact h.fresh_frames_unwritten pa ((Nat.mul_le_mul_right _ grows).trans fresh)

end PagesAgree

end Sys2Proof.Machine
end

section
/-! SUPPORT. Recency (rules R115, R117, R138, R141): a list that an order splits into two parts stays split when an index
is promoted into the second part, and what step 2 of TRANSLATE leaves for the promotions. -/

namespace Sys2Proof.Machine

variable {s t u : State} {page : PageNo} {k : SlotNo} {frame : FrameNo}

section
variable {n : Nat} {order : Order n} {i : Fin n}

/-- PROMOTE keeps the other indices in their order and puts the promoted one last (rule R112). -/
theorem promote_eq_filter (h : OrderWf order) :
    (promote order i).toList = order.toList.filter (· != i) ++ [i] := by
  rw [promote_toList h, h.erase_eq_filter]

/-- The part of an order that a promoted index does not belong to. -/
theorem promote_filter_without (h : OrderWf order) {old new : Fin n → Bool} (loses : ∀ x, new x = (old x && x != i)) :
    (promote order i).toList.filter new = (order.toList.filter old).filter (· != i) := by
  have notLast : [i].filter new = [] := by simp [loses]
  rw [promote_eq_filter h, List.filter_append, notLast, List.append_nil, List.filter_filter, List.filter_filter]
  refine List.filter_congr fun x _ => ?_
  cases hx : x != i <;> simp [loses, hx]

/-- The part of an order that a promoted index belongs to. -/
theorem promote_filter_with (h : OrderWf order) {old new : Fin n → Bool} (gains : ∀ x, new x = (old x || x == i)) :
    (promote order i).toList.filter new = (order.toList.filter old).filter (· != i) ++ [i] := by
  have last : [i].filter new = [i] := by simp [gains]
  rw [promote_eq_filter h, List.filter_append, last, List.filter_filter, List.filter_filter]
  congr 1
  refine List.filter_congr fun x _ => ?_
  rw [gains, bne]
  cases x == i <;> simp

/-- An order split into two parts, the first of which loses the promoted index and the second gains it, stays split. -/
theorem promote_keeps_split (h : OrderWf order) {first last first' last' : Fin n → Bool}
    (split : order.toList = order.toList.filter first ++ order.toList.filter last)
    (loses : ∀ x, first' x = (first x && x != i)) (gains : ∀ x, last' x = (last x || x == i)) :
    (promote order i).toList = (promote order i).toList.filter first' ++ (promote order i).toList.filter last' := by
  rw [promote_filter_without h loses, promote_filter_with h gains, promote_eq_filter h, ← List.append_assoc,
    ← List.filter_append, ← split]

end

/-- A suffix of a list without repetitions that holds the list's head is the whole list. -/
theorem suffix_eq_of_head_mem {α : Type} {l m : List α} {a : α} (suffix : l <:+ m) (nodup : m.Nodup)
    (head : m.head? = some a) (mem : a ∈ l) : l = m := by
  obtain ⟨front, rfl⟩ := suffix
  cases front with
  | nil => rfl
  | cons b front =>
    obtain rfl : b = a := by simpa using head
    have : b ∉ front ++ l := (List.nodup_cons.mp nodup).1
    exact absurd (List.mem_append_right _ mem) this

/-- A slot stands among the live ones exactly when it holds a page. -/
theorem mem_liveSlots (h : OrderWf s.rlT) {j : SlotNo} : j ∈ liveSlots s ↔ s.tlb[j].page.isSome := by
  simp only [liveSlots, List.mem_filter]
  exact and_iff_right (h.mem j)

/-- The target of a fill serves no TLB slot: a fresh frame serves none, and an evicted one is the least recently used of
128, while the at most 16 frames of the slots are the most recently used (rules R141, R159). -/
theorem fillTarget_in_no_slot (slots : OrderWf s.rlT) (frames : OrderWf s.rlF) (h : Healthy s) {j : SlotNo} {p : PageNo}
    (holds : s.tlb[j].page = some p) : s.tlb[j].frame ≠ fillTarget s := by
  intro target
  by_cases fresh : s.fill.val < numFrames
  · have below := h.pages.valid_lt_fill (h.tlb_agrees_with_page_table j p holds)
    rw [target, (takeTarget_fresh fresh).1] at below
    exact Nat.lt_irrefl _ below
  · rw [(takeTarget_evict fresh).1] at target
    have mem : peekLeast s.rlF ∈ (liveSlots s).map fun k => s.tlb[k].frame :=
      List.mem_map.mpr ⟨j, (mem_liveSlots slots).mpr (Option.isSome_of_mem holds), target⟩
    have whole := suffix_eq_of_head_mem h.live_frames_most_recent frames (toList_head s.rlF) mem
    have few : (liveSlots s).length ≤ tlbSlots := (List.length_filter_le ..).trans_eq (Vector.length_toList)
    have many : (liveSlots s).length = numFrames := by
      simpa using congrArg List.length whole
    exact absurd (many ▸ few) (by decide)

namespace Served

/-- Step 2 promotes nothing (rules R132, R154). -/
theorem rlT_eq (h : Served page s k frame u) : u.rlT = s.rlT := by cases h <;> simp

theorem rlF_eq (h : Served page s k frame u) : u.rlF = s.rlF := by cases h <;> simp

theorem fault_eq (h : Served page s k frame u) : u.fault = s.fault := by cases h <;> simp

/-- The slot that serves the page holds it with its frame, and every other slot is as it was. -/
theorem tlb_get (h : Served page s k frame u) (j : SlotNo) :
    u.tlb[j] = if j = k then ⟨some page, frame⟩ else s.tlb[j] := by
  cases h with
  | hit holds =>
    split
    next same => rw [same, ← holds]; rfl
    next => rfl
  | walk => exact vector_set_get ..
  | fill => rw [install_tlb, filled_tlb]; exact vector_set_get ..

section
variable (healthy : Healthy s) (served : Served page s k frame u)
include healthy served

/-- The slot that serves the page is the only one to hold it (rule R139). -/
theorem others_miss {j : SlotNo} (other : j ≠ k) : s.tlb[j].page ≠ some page := by
  cases served with
  | hit holds =>
    exact fun same => other
      (healthy.slots_hold_distinct_pages j k (Option.isSome_of_mem same) (same.trans holds.symm))
  | walk missed => exact missed j
  | fill missed => exact missed j

/-- The page is valid in the frame that serves it. -/
theorem mapped : u.pt[page] = some frame := by
  cases served with
  | hit holds => exact healthy.tlb_agrees_with_page_table _ _ holds
  | walk _ valid => exact valid
  | fill =>
    rw [install_pt, filled_pt]
    exact (vector_set_get ..).trans (if_pos rfl)

/-- A page that stands in another frame stays valid there. -/
theorem pt_kept {p : PageNo} {f : FrameNo} (valid : s.pt[p] = some f) (other : f ≠ frame) : u.pt[p] = some f := by
  cases served with
  | hit => exact valid
  | walk => exact valid
  | fill _ invalid =>
    have apart : p ≠ page := by
      rintro rfl
      simp [invalid] at valid
    rw [install_pt, filled_pt]
    refine (vector_set_get ..).trans ?_
    rw [if_neg apart, healthy.pages.afterTarget_pt, valid, if_neg (by simpa using other)]

/-- The frames handed out are those before and the one that serves the page. -/
theorem lt_fill (g : FrameNo) : g.val < u.fill.val ↔ g.val < s.fill.val ∨ g = frame := by
  have handedOut {p : PageNo} {f : FrameNo} (valid : s.pt[p] = some f) :
      g.val < s.fill.val ↔ g.val < s.fill.val ∨ g = f :=
    ⟨.inl, fun h => h.elim id fun same => same ▸ healthy.pages.valid_lt_fill valid⟩
  cases served with
  | hit holds => exact handedOut (healthy.tlb_agrees_with_page_table _ _ holds)
  | walk _ valid => exact handedOut valid
  | fill => rw [install_fill, filled_fill]; exact lt_afterTarget_fill s g

/-- Step 2 keeps the pages in agreement. -/
theorem pages : PagesAgree u := by
  cases served with
  | hit => exact healthy.pages.of_eq rfl rfl rfl rfl rfl
  | walk => exact healthy.pages.of_eq rfl rfl rfl rfl rfl
  | fill _ invalid => exact (healthy.pages.filled invalid).of_eq rfl rfl rfl rfl rfl

/-- The frame that serves the page serves no other slot. -/
theorem others_have_other_frames (slots : OrderWf s.rlT) (frames : OrderWf s.rlF) {j : SlotNo} (other : j ≠ k)
    (live : s.tlb[j].page.isSome) : s.tlb[j].frame ≠ frame := by
  obtain ⟨p, holds⟩ := Option.isSome_iff_exists.mp live
  have apart : p ≠ page := fun same => served.others_miss healthy other (same ▸ holds)
  have valid := healthy.tlb_agrees_with_page_table j p holds
  cases served with
  | hit here =>
    exact fun same => apart (healthy.pages.page_unique (same ▸ valid) (healthy.tlb_agrees_with_page_table _ _ here))
  | walk _ valid' => exact fun same => apart (healthy.pages.page_unique (same ▸ valid) valid')
  | fill => exact fillTarget_in_no_slot slots frames healthy holds

end

end Served

end Sys2Proof.Machine
end

section
/-! SUPPORT. The invariant: what it does not speak of, that the reset values meet it, and that commands and steps keep
it. -/

namespace Sys2Proof.Machine

variable {s t u : State} {page : PageNo} {k : SlotNo} {frame : FrameNo}

/-! ### The host's fields -/

/-- The block's health does not depend on the host's inputs, the response or the replies. -/
theorem Healthy.of_host_fields (h : Healthy s) (inbox : List HostInput) (response : Option Resp) (sent : List Reply) :
    Healthy { s with inbox := inbox, response := response, sent := sent } := by
  obtain ⟨emptyFirst, distinct, agree, valid, filled, bytes, unwritten, freshFirst, recent, stats⟩ := h
  exact ⟨emptyFirst, distinct, agree, valid, filled, bytes, unwritten, freshFirst, recent, stats⟩

/-- Nor does the invariant. -/
theorem Inv.of_host_fields (h : Inv s) (inbox : List HostInput) (response : Option Resp) (sent : List Reply) :
    Inv { s with inbox := inbox, response := response, sent := sent } := by
  obtain ⟨tlbOrder, frameOrder, tlbSeed, frameSeed, memory, healthy, stats, hits, fill⟩ := h
  exact ⟨tlbOrder, frameOrder, tlbSeed, frameSeed, memory,
    fun clear => (healthy clear).of_host_fields inbox response sent, stats, hits, fill⟩

theorem Inv.after_input (h : Inv s) (inbox : List HostInput) : Inv { s with inbox := inbox } :=
  h.of_host_fields inbox s.response s.sent

theorem Inv.after_respond (h : Inv s) (r : Resp) : Inv (respond r s) := h.of_host_fields s.inbox (some r) s.sent

theorem Inv.after_post (h : Inv s) (r : Reply) : Inv (post r s) := h.of_host_fields s.inbox s.response (s.sent ++ [r])

/-! ### A TRANSLATE that completes -/

/-- Without the least recently used slot, the live slots are the most recent of them. -/
theorem liveSlots_without_least_suffix (h : OrderWf s.rlT) :
    (liveSlots s).filter (· != peekLeast s.rlT) <:+ liveSlots s := by
  obtain ⟨rest, cons⟩ := List.head?_eq_some_iff.mp (toList_head s.rlT)
  have notin : peekLeast s.rlT ∉ rest := by
    have nodup : (peekLeast s.rlT :: rest).Nodup := cons ▸ h
    exact (List.nodup_cons.mp nodup).1
  have without : s.rlT.toList.filter (· != peekLeast s.rlT) = rest := by
    rw [← h.erase_eq_filter, cons, List.erase_cons_head]
  have suffix : rest <:+ s.rlT.toList := cons ▸ List.suffix_cons _ rest
  have comm : (liveSlots s).filter (· != peekLeast s.rlT) = rest.filter fun j => s.tlb[j].page.isSome := by
    rw [liveSlots, List.filter_comm, without]
  exact comm ▸ suffix.filter _

namespace Served

section
variable (slots : OrderWf s.rlT) (frames : OrderWf s.rlF) (healthy : Healthy s) (served : Served page s k frame u)
include slots served

/-- After the promotion the live slots are the others in their order, and then the one that serves the page. -/
theorem liveSlots_complete (o : Offset) :
    liveSlots (complete k frame o u) = (liveSlots s).filter (· != k) ++ [k] := by
  rw [liveSlots, complete_rlT, served.rlT_eq]
  refine promote_filter_with slots fun j => ?_
  rw [complete_tlb, served.tlb_get]
  by_cases same : j = k <;> simp [same]

/-- The EMPTY slots still stand before the others (rule R138). -/
theorem empty_slots_first (healthy : Healthy s) (o : Offset) :
    (complete k frame o u).rlT.toList = emptySlots (complete k frame o u) ++ liveSlots (complete k frame o u) := by
  rw [emptySlots, liveSlots, complete_rlT, served.rlT_eq]
  refine promote_keeps_split slots healthy.empty_slots_first (fun j => ?_) fun j => ?_
  all_goals
    rw [complete_tlb, served.tlb_get]
    by_cases same : j = k <;> simp [same]

include frames healthy

/-- The frames of the other live slots are the most recently used ones but for the frame that serves the page. -/
theorem other_frames_most_recent :
    ((liveSlots s).filter (· != k)).map (fun j => s.tlb[j].frame) <:+ s.rlF.toList.filter (· != frame) := by
  have recent := healthy.live_frames_most_recent.filter (· != frame)
  refine List.IsSuffix.trans ?_ recent
  have apart : ∀ j ∈ liveSlots s, j ≠ k → s.tlb[j].frame ≠ frame := fun j live other =>
    served.others_have_other_frames healthy slots frames other ((mem_liveSlots slots).mp live)
  have missed (least : k = peekLeast s.rlT) :
      ((liveSlots s).filter (· != k)).map (fun j => s.tlb[j].frame) <:+
        ((liveSlots s).map fun j => s.tlb[j].frame).filter (· != frame) := by
    have suffix := ((liveSlots_without_least_suffix slots).map fun j => s.tlb[j].frame).filter (· != frame)
    rw [← least] at suffix
    rwa [List.filter_eq_self.mpr] at suffix
    intro f mem
    obtain ⟨j, hj, rfl⟩ := List.mem_map.mp mem
    obtain ⟨live, other⟩ := List.mem_filter.mp hj
    exact bne_iff_ne.mpr (apart j live (bne_iff_ne.mp other))
  cases served with
  | hit =>
    have same : (liveSlots s).filter (· != k) = (liveSlots s).filter fun j => s.tlb[j].frame != s.tlb[k].frame := by
      refine List.filter_congr fun j live => ?_
      by_cases here : j = k
      · simp [here]
      · rw [bne_iff_ne.mpr here, bne_iff_ne.mpr (apart j live here)]
    rw [List.filter_map, same]
    exact List.suffix_rfl
  | walk => exact missed rfl
  | fill => exact missed rfl

/-- A TRANSLATE that completes leaves the block healthy (rules R48, R171). -/
theorem healthy_complete (o : Offset) : Healthy (complete k frame o u) := by
  have pages := served.pages healthy
  have slot : ∀ j, (complete k frame o u).tlb[j] = if j = k then ⟨some page, frame⟩ else s.tlb[j] := fun j => by
    rw [complete_tlb, served.tlb_get]
  constructor
  case empty_slots_first => exact served.empty_slots_first slots healthy o
  case slots_hold_distinct_pages =>
    intro i j live same
    rw [slot] at live
    rw [slot, slot] at same
    by_cases hi : i = k <;> by_cases hj : j = k
    · exact hi.trans hj.symm
    · rw [if_pos hi, if_neg hj] at same
      exact absurd same.symm (served.others_miss healthy hj)
    · rw [if_neg hi, if_pos hj] at same
      exact absurd same (served.others_miss healthy hi)
    · rw [if_neg hi] at live same
      rw [if_neg hj] at same
      exact healthy.slots_hold_distinct_pages i j live same
  case tlb_agrees_with_page_table =>
    intro j p holds
    rw [slot] at holds
    rw [slot, complete_pt]
    by_cases hj : j = k
    · rw [if_pos hj] at holds ⊢
      exact Option.some.inj holds ▸ served.mapped healthy
    · rw [if_neg hj] at holds ⊢
      exact served.pt_kept healthy (healthy.tlb_agrees_with_page_table j p holds)
        (served.others_have_other_frames healthy slots frames hj (Option.isSome_of_mem holds))
  case valid_iff_resident => exact pages.valid_iff_resident
  case resident_iff_filled => exact pages.resident_iff_filled
  case frames_hold_their_pages => exact pages.frames_hold_their_pages
  case fresh_frames_unwritten => exact pages.fresh_frames_unwritten
  case fresh_frames_first =>
    rw [complete_rlF, served.rlF_eq, complete_fill]
    refine promote_keeps_split frames healthy.fresh_frames_first (fun f => ?_) fun f => ?_
    · rw [Bool.eq_iff_iff]
      simp only [Bool.and_eq_true, decide_eq_true_eq, bne_iff_ne, ← Nat.not_lt, served.lt_fill healthy, not_or, ne_eq]
    · rw [Bool.eq_iff_iff]
      simp only [Bool.or_eq_true, decide_eq_true_eq, beq_iff_eq, served.lt_fill healthy]
  case live_frames_most_recent =>
    rw [served.liveSlots_complete slots, complete_rlF, served.rlF_eq, promote_eq_filter frames, List.map_append]
    have others : ((liveSlots s).filter (· != k)).map (fun j => (complete k frame o u).tlb[j].frame) =
        ((liveSlots s).filter (· != k)).map fun j => s.tlb[j].frame := by
      refine List.map_congr_left fun j mem => ?_
      rw [slot, if_neg (bne_iff_ne.mp (List.mem_filter.mp mem).2)]
    have last : [k].map (fun j => (complete k frame o u).tlb[j].frame) = [frame] := by
      rw [List.map_singleton, slot, if_pos rfl]
    obtain ⟨front, recent⟩ := served.other_frames_most_recent slots frames healthy
    exact ⟨front, by rw [others, last, ← List.append_assoc, recent]⟩
  case stats_consistent =>
    have before := healthy.stats_consistent
    cases served <;> simp <;> omega
end

end Served

/-! ### Commands and steps -/

/-- The law of the fill count (rule R156) carries over a page fault. -/
theorem afterTarget_fill_eq_min (h : s.fill.val = min numFrames s.stat.pageFaults) :
    (afterTarget s).fill.val = min numFrames (s.stat.pageFaults + 1) := by
  rw [afterTarget_fill]
  split <;> omega

namespace Inv

variable (inv : Inv s)
include inv

/-- A TRANSLATE that completes keeps the invariant. -/
theorem after_complete (clear : s.fault = none) (served : Served page s k frame u) (o : Offset) :
    Inv (complete k frame o u) := by
  have healthy := served.healthy_complete inv.tlb_order inv.frame_order (inv.healthy clear) o
  have stats := healthy.stats_consistent
  constructor
  case tlb_order => rw [complete_rlT, served.rlT_eq]; exact promote_wf inv.tlb_order k
  case frame_order => rw [complete_rlF, served.rlF_eq]; exact promote_wf inv.frame_order frame
  case tlb_seed => cases served <;> simpa using inv.tlb_seed
  case frame_seed => cases served <;> simpa using inv.frame_seed
  case memory =>
    cases served with
    | hit => exact inv.memory
    | walk => exact inv.memory
    | fill =>
      rw [complete_mem, install_mem, filled_mem]
      exact Memory.write_wf inv.memory (by rw [BackingStore.pageAt_length]; exact frame_fits _)
  case healthy => exact fun _ => healthy
  case stats_with_fault => exact stats.trans (Nat.le_add_right ..)
  case hits_bounded => exact (Nat.le_add_right ..).trans stats
  case fill_counts_faults =>
    cases served with
    | hit => exact inv.fill_counts_faults
    | walk => exact inv.fill_counts_faults
    | fill =>
      rw [complete_fill, install_fill, filled_fill, complete_stat, install_stat, filled_stat]
      exact afterTarget_fill_eq_min inv.fill_counts_faults

/-- A fill that fails keeps the invariant: FAULT is set, so the block need not be healthy (rule R153). -/
theorem after_fillFailed (clear : s.fault = none) : Inv (fillFailed page s) where
  tlb_order := by rw [fillFailed_rlT]; exact inv.tlb_order
  frame_order := by rw [fillFailed_rlF]; exact inv.frame_order
  tlb_seed := by rw [fillFailed_tlbSeed]; exact inv.tlb_seed
  frame_seed := by rw [fillFailed_frameSeed]; exact inv.frame_seed
  memory := by
    rw [fillFailed_mem]
    exact Memory.write_wf inv.memory (by rw [failedFillBytes_length]; exact frame_fits _)
  healthy := by simp
  stats_with_fault := by
    have before := (inv.healthy clear).stats_consistent
    simp
    omega
  hits_bounded := by simpa using inv.hits_bounded
  fill_counts_faults := by
    rw [fillFailed_fill, fillFailed_stat]
    exact afterTarget_fill_eq_min inv.fill_counts_faults

/-- Every command keeps the invariant. -/
theorem after_exec {i : Instr} (h : exec i s = .next t) : Inv t := by
  cases exec_answered h with
  | plain r => exact inv.after_respond r
  | translated _ clear served => exact inv.after_complete clear served _
  | failed _ clear => exact (inv.after_fillFailed clear).after_respond _

/-- A store attached while no frame is filled keeps the invariant: no frame holds a byte of the old one (rule R64). -/
theorem after_attach (store : BackingStore) (unfilled : s.fill = 0) : Inv { s with bs := store } := by
  obtain ⟨tlbOrder, frameOrder, tlbSeed, frameSeed, memory, healthy, stats, hits, fill⟩ := inv
  refine ⟨tlbOrder, frameOrder, tlbSeed, frameSeed, memory, fun clear => ?_, stats, hits, fill⟩
  obtain ⟨emptyFirst, distinct, agree, valid, filled, -, unwritten, freshFirst, recent, stats⟩ := healthy clear
  have noBytes (f : FrameNo) : ¬ f.val < s.fill.val := by simp [unfilled]
  exact ⟨emptyFirst, distinct, agree, valid, filled, fun f _ _ below => absurd below (noBytes f), unwritten, freshFirst,
    recent, stats⟩

end Inv

/-! ### Reset -/

/-- Right after a reset every slot is EMPTY (rule R215). -/
theorem emptyTlb_page (n : Nat) (k : SlotNo) : (emptyTlb n)[k].page = none := by simp [emptyTlb]

/-- The reset values of rule R33, the orders being the seeds, with nothing written in frame memory (rule R216). -/
structure AtReset (s : State) : Prop where
  slots_empty : ∀ k : SlotNo, s.tlb[k].page = none
  slot_order : s.rlT = s.tlbSeed
  pages_invalid : ∀ p : PageNo, s.pt[p] = none
  frames_unoccupied : ∀ f : FrameNo, s.resident[f] = none
  nothing_filled : s.fill = 0
  frame_order : s.rlF = s.frameSeed
  nothing_counted : s.stat = ⟨0, 0, 0⟩
  clear : s.fault = none
  nothing_written : s.mem = []

/-- The machine's first state holds the reset values. -/
theorem reset_atReset : AtReset State.reset where
  slots_empty := emptyTlb_page 0
  slot_order := rfl
  pages_invalid p := by simp [State.reset]
  frames_unoccupied f := by simp [State.reset]
  nothing_filled := rfl
  frame_order := rfl
  nothing_counted := rfl
  clear := rfl
  nothing_written := rfl

/-- A reset puts the reset values in place (rule R215). -/
theorem applyReset_atReset (s : State) : AtReset (applyReset s) where
  slots_empty := emptyTlb_page (s.resets + 1)
  slot_order := rfl
  pages_invalid p := by simp [applyReset]
  frames_unoccupied f := by simp [applyReset]
  nothing_filled := rfl
  frame_order := rfl
  nothing_counted := rfl
  clear := rfl
  nothing_written := rfl

namespace AtReset

variable (h : AtReset s)
include h

/-- Every slot is EMPTY (rule R138). -/
theorem emptySlots_eq : emptySlots s = s.rlT.toList :=
  List.filter_eq_self.mpr fun k _ => Option.isNone_iff_eq_none.mpr (h.slots_empty k)

/-- No slot is live. -/
theorem liveSlots_eq : liveSlots s = [] :=
  List.filter_eq_nil_iff.mpr fun k _ => Option.not_isSome_iff_eq_none.mpr (h.slots_empty k)

/-- A block that holds the reset values is healthy. -/
theorem healthy : Healthy s where
  empty_slots_first := by rw [h.emptySlots_eq, h.liveSlots_eq, List.append_nil]
  slots_hold_distinct_pages j _ live := by rw [h.slots_empty j] at live; cases live
  tlb_agrees_with_page_table k p holds := by rw [h.slots_empty k] at holds; cases holds
  valid_iff_resident p f := by simp [h.pages_invalid p, h.frames_unoccupied f]
  resident_iff_filled f := by simp [h.frames_unoccupied f, h.nothing_filled]
  frames_hold_their_pages f p o _ holds := by simp [h.frames_unoccupied f] at holds
  fresh_frames_unwritten pa _ := by simp [h.nothing_written, Memory.read]
  fresh_frames_first := by simp [h.nothing_filled]
  live_frames_most_recent := by rw [h.liveSlots_eq]; exact List.nil_suffix
  stats_consistent := by simp [h.nothing_counted]

/-- A block that holds the reset values meets the invariant, whatever permutations its seeds are. -/
theorem inv (tlbSeed : OrderWf s.tlbSeed) (frameSeed : OrderWf s.frameSeed) : Inv s where
  tlb_order := h.slot_order ▸ tlbSeed
  frame_order := h.frame_order ▸ frameSeed
  tlb_seed := tlbSeed
  frame_seed := frameSeed
  memory := by
    rw [h.nothing_written]
    exact reset_memory_wf
  healthy _ := h.healthy
  stats_with_fault := by simp [h.nothing_counted]
  hits_bounded := by simp [h.nothing_counted]
  fill_counts_faults := by simp [h.nothing_counted, h.nothing_filled]

end AtReset

/-- Every step keeps the invariant: a reset establishes it anew, and the rest act on a block that meets it. -/
theorem Inv.after_step (inv : Inv s) (h : step s = .next t) : Inv t := by
  cases step_stepped h with
  | idle => exact inv
  | reset => exact (applyReset_atReset _).inv inv.tlb_seed inv.frame_seed
  | @attach store rest _ unfilled => exact (inv.after_input rest).after_attach store unfilled
  | @word _ rest _ _ _ _ _ _ answer => exact ((inv.after_input rest).after_exec answer).after_post _
  | @command rest _ _ _ _ answer => exact ((inv.after_input rest).after_exec answer).after_post _
  | @illegal _ _ rest => exact ((inv.after_input rest).after_respond _).after_post _

end Sys2Proof.Machine
end

section
/-! SUPPORT. What a command does to the counters, the fill count, FAULT and the parameters. -/

namespace Sys2Proof.Machine

variable {s t u : State} {page : PageNo} {k : SlotNo} {frame : FrameNo} {i : Instr}

/-- A command keeps the seeds, the backing store and its draws (rules R36, R43, R64). -/
theorem exec_keeps_parameters (h : exec i s = .next t) :
    t.tlbSeed = s.tlbSeed ∧ t.frameSeed = s.frameSeed ∧ t.draws = s.draws ∧ t.bs = s.bs := by
  cases exec_answered h with
  | plain => exact ⟨rfl, rfl, rfl, rfl⟩
  | translated _ _ served => cases served <;> simp
  | failed => simp

/-- A command leaves FAULT as it is, or it finds it clear and sets it with ERR_BACKING_STORE_IO of the page it
records (rules R45, R153, R170). -/
theorem exec_fault (h : exec i s = .next t) :
    t.fault = s.fault ∨
      s.fault = none ∧ ∃ p, t.fault = some ⟨.backingStoreIOError, p⟩ ∧ t.response = some (.errBackingStoreIO p) := by
  cases exec_answered h with
  | plain => exact .inl rfl
  | translated _ _ served => exact .inl (by rw [complete_fault, served.fault_eq])
  | @failed p _ _ _ clear => exact .inr ⟨clear, p, by simp, rfl⟩

/-- The same of every step but a reset. -/
theorem step_fault (h : step s = .next t) (notReset : s.inbox.head? ≠ some .reset) :
    t.fault = s.fault ∨
      s.fault = none ∧ ∃ p, t.fault = some ⟨.backingStoreIOError, p⟩ ∧ t.response = some (.errBackingStoreIO p) := by
  cases step_stepped h with
  | idle => exact .inl rfl
  | reset input => exact absurd (congrArg List.head? input) notReset
  | attach => exact .inl rfl
  | word _ _ answer => exact (exec_fault answer :)
  | command _ answer => exact (exec_fault answer :)
  | illegal => exact .inl rfl

/-- Step 2 translates nothing yet (rule R44). -/
theorem Served.translated_eq (h : Served page s k frame u) : u.stat.translated = s.stat.translated := by
  cases h <;> simp

/-- The counters after step 2 when a slot held the page (rules R44, R130). -/
theorem Served.stat_of_hit (h : Served page s k frame u) (held : ∃ j : SlotNo, s.tlb[j].page = some page) :
    u.stat = { s.stat with tlbHits := s.stat.tlbHits + 1 } := by
  obtain ⟨j, holds⟩ := held
  cases h with
  | hit => rfl
  | walk missed => exact absurd holds (missed j)
  | fill missed => exact absurd holds (missed j)

/-- The counters after step 2 when no slot held the page (rules R44, R150). -/
theorem Served.stat_of_miss (h : Served page s k frame u) (missed : ∀ j : SlotNo, s.tlb[j].page ≠ some page) :
    u.stat = if s.pt[page] = none then { s.stat with pageFaults := s.stat.pageFaults + 1 } else s.stat := by
  cases h with
  | hit holds => exact absurd holds (missed k)
  | walk _ valid => rw [valid]; rfl
  | fill _ invalid => rw [if_pos invalid, install_stat, filled_stat]

/-- The fill count after step 2: one more exactly when a page fault found a fresh frame (rules R42, R151). -/
theorem Served.fill_eq (h : Served page s k frame u) :
    u.fill.val = s.fill.val + if u.stat.pageFaults = s.stat.pageFaults + 1 ∧ s.fill.val < numFrames then 1 else 0 := by
  cases h with
  | hit => simp
  | walk => simp
  | fill =>
    simp only [install_fill, filled_fill, afterTarget_fill, install_stat, filled_stat, true_and]
    split <;> rfl

end Sys2Proof.Machine
end

section
/-! The statements of 10_state.md. -/

namespace Sys2Proof.Machine

/-- Settles O52, by the cases of a step: a reset establishes the invariant and every other step keeps it. The TLB needs no
invalidation on an eviction because the victim serves no slot (`fillTarget_in_no_slot`). -/
theorem everyStepKeepsTheInvariant : Obligations.EveryStepKeepsTheInvariant :=
  fun _ _ inv h => inv.after_step h

/-- Settles O36: each counter along the ways a command can answer. -/
theorem countersRiseAtTheirOnePoint : Obligations.CountersRiseAtTheirOnePoint := by
  intro i s t h
  cases exec_answered h with
  | plain r untranslated rejected =>
    exact ⟨fun pa v response => absurd (Option.some.inj response) (untranslated pa v), fun _ => rfl,
      fun ⟨p, o, w, command, clear, _⟩ => absurd clear (rejected p o w command),
      fun ⟨p, o, w, command, clear, _⟩ => absurd clear (rejected p o w command), fun _ => ⟨rfl, rfl⟩⟩
  | @translated p o w k frame u command clear served =>
    rw [complete_stat, served.translated_eq]
    refine ⟨fun _ _ _ => rfl, fun response => absurd (complete_response o) (response _ _), ?_, ?_, fun other => ?_⟩
    · rintro ⟨q, o', w', command', -, held⟩
      obtain rfl := page_of_translate_eq (command.symm.trans command')
      rw [served.stat_of_hit held]
      exact ⟨rfl, rfl⟩
    · rintro ⟨q, o', w', command', -, missed, invalid⟩
      obtain rfl := page_of_translate_eq (command.symm.trans command')
      rw [served.stat_of_miss missed, if_pos invalid]
      exact ⟨rfl, rfl⟩
    · obtain ⟨missed, valid⟩ := other p o w command clear
      rw [served.stat_of_miss missed, if_neg valid]
      exact ⟨rfl, rfl⟩
  | @failed p o w command clear missed invalid =>
    rw [respond_stat, fillFailed_stat, respond_response]
    refine ⟨fun _ _ response => (by cases response), fun _ => rfl, ?_, fun _ => ⟨rfl, rfl⟩, fun other => ?_⟩
    · rintro ⟨q, o', w', command', -, j, holds⟩
      obtain rfl := page_of_translate_eq (command.symm.trans command')
      exact absurd holds (missed j)
    · exact absurd invalid (other p o w command clear).2

/-- Settles O37: only a page fault moves the fill count. -/
theorem fillCountRisesOncePerFreshFault : Obligations.FillCountRisesOncePerFreshFault := by
  intro i s t h
  cases exec_answered h with
  | plain => simp
  | translated _ _ served =>
    rw [complete_fill, complete_stat]
    exact served.fill_eq
  | failed =>
    rw [respond_fill, respond_stat, fillFailed_fill, fillFailed_stat, afterTarget_fill]
    simp only [true_and]
    split <;> rfl

/-- Settles O40: FAULT is as it was, or a fill has just failed. -/
theorem faultRegisterIsSticky : Obligations.FaultRegisterIsSticky := by
  intro s t h notReset
  obtain kept | ⟨clear, failed⟩ := step_fault h notReset
  · exact ⟨fun r set => kept.trans set, fun clear set => absurd (kept.trans clear) set⟩
  · exact ⟨fun r set => (nomatch clear.symm.trans set), fun _ _ => failed⟩

/-- Settles O49: a command keeps the parameters, and of the other steps only an attached store writes one. -/
theorem parametersStayFixed : Obligations.ParametersStayFixed := by
  intro s t h
  cases step_stepped h with
  | idle => exact ⟨rfl, rfl, rfl, fun _ => rfl⟩
  | reset => exact ⟨rfl, rfl, rfl, fun _ => rfl⟩
  | @attach store _ input => exact ⟨rfl, rfl, rfl, fun other => absurd (congrArg List.head? input) (other store)⟩
  | word _ _ answer =>
    obtain ⟨tlbSeed, frameSeed, draws, bs⟩ := exec_keeps_parameters answer
    exact ⟨tlbSeed, frameSeed, draws, fun _ => bs⟩
  | command _ answer =>
    obtain ⟨tlbSeed, frameSeed, draws, bs⟩ := exec_keeps_parameters answer
    exact ⟨tlbSeed, frameSeed, draws, fun _ => bs⟩
  | illegal => exact ⟨rfl, rfl, rfl, fun _ => rfl⟩

/-- Settles O45: the first state holds the reset values. -/
theorem resetStateHoldsTheResetValues : Obligations.ResetStateHoldsTheResetValues := by
  obtain ⟨slots, slotOrder, pages, frames, fill, frameOrder, stat, clear, -⟩ := reset_atReset
  exact ⟨slots, slotOrder, pages, frames, fill, frameOrder, stat, clear⟩

/-- Settles O51: the reset values meet the invariant, the ascending seeds being permutations. -/
theorem resetMeetsTheInvariant : Obligations.ResetMeetsTheInvariant :=
  reset_atReset.inv (ascendingOrder_wf _) (ascendingOrder_wf _)

end Sys2Proof.Machine
end

section
/-! SUPPORT. What the backing store gives to a translation: where a filled page's bytes stand, that a served page's byte
is the store's, and when a command waits for the device. -/

namespace Sys2Proof.Machine

variable {s t u : State} {page : PageNo} {k : SlotNo} {frame : FrameNo} {i : Instr}

/-! ### Addresses -/

/-- The low eight bits of an address put together from a page or frame number and an offset (rules R125, R126). -/
theorem address_and_mask (n : Nat) (o : Offset) : (n * 256 + o.val) &&& 0xFF = o.val := by
  have ho : o.val < 256 := o.isLt
  have low : (n * 256 + o.val) &&& 0xFF = (n * 256 + o.val) % 256 := Nat.and_two_pow_sub_one_eq_mod _ 8
  omega

/-- The bits of such an address above the low eight. -/
theorem address_shiftRight (n : Nat) (o : Offset) : (n * 256 + o.val) >>> 8 = n := by
  have ho : o.val < 256 := o.isLt
  have high : (n * 256 + o.val) >>> 8 = (n * 256 + o.val) / 256 := Nat.shiftRight_eq_div_pow _ 8
  omega

/-- No page of a full-size backing store is short (rules R7, R219). -/
theorem page_fits (p : PageNo) : pageBase p + pageSize ≤ bsMin := by
  have hp : p.val < 256 := p.isLt
  change p.val * 256 + 256 ≤ 65536
  omega

/-! ### The bytes -/

@[simp] theorem afterTarget_resets (s : State) : (afterTarget s).resets = s.resets := by simp [afterTarget]
@[simp] theorem filled_resets (s : State) : (filled page s).resets = s.resets := by simp [filled, fillAndMap]

/-- After a fill the target frame holds the page's bytes (rule R68). -/
theorem memRead_filled_target (s : State) {o : Nat} (ho : o < pageSize) :
    memRead (filled page s) (frameBase (fillTarget s) + o) = s.bs.byteAt (pageBase page + o) := by
  have inside : frameBase (fillTarget s) ≤ frameBase (fillTarget s) + o ∧
      frameBase (fillTarget s) + o < frameBase (fillTarget s) + pageSize :=
    ⟨Nat.le_add_right .., Nat.add_lt_add_left ho _⟩
  rw [memRead, filled_mem, Memory.read_write, BackingStore.pageAt_length, if_pos inside, Nat.add_sub_cancel_left,
    BackingStore.pageAt_getElem? _ _ _ ho, Option.getD_some]

/-- A fill writes no byte outside the target frame (rules R68, R150). -/
theorem memRead_filled_outside (s : State) {pa : Nat}
    (outside : ¬ (frameBase (fillTarget s) ≤ pa ∧ pa < frameBase (fillTarget s) + pageSize)) :
    memRead (filled page s) pa = memRead s pa := by
  rw [memRead, filled_mem, Memory.read_write, BackingStore.pageAt_length, if_neg outside, filled_resets, memRead]

namespace Served

theorem bs_eq (h : Served page s k frame u) : u.bs = s.bs := by cases h <;> simp

/-- The byte that step 3 of TRANSLATE reads is the backing store's, since the page stands in the frame that serves it and
a filled frame holds its page's bytes (rules R68, R74, R158). -/
theorem readByte_eq (healthy : Healthy s) (served : Served page s k frame u) (o : Offset) :
    readByte frame o u = sext8 (s.bs.byteAt (page.val * 256 + o.val)) := by
  have pages := served.pages healthy
  obtain ⟨handedOut, resident⟩ := (pages.valid_iff_resident page frame).mp (served.mapped healthy)
  have stored := pages.frames_hold_their_pages frame page o handedOut resident
  rw [served.bs_eq] at stored
  have read : memRead u (composePhysical frame o) = s.bs.byteAt (page.val * 256 + o.val) := by
    rw [memRead]
    exact congrArg (Option.getD · _) stored
  rw [readByte, read]

end Served

/-! ### The device -/

/-- Step 2 of TRANSLATE is done whenever a read of the page would succeed, whether or not it needs the read (rules R66,
R165). -/
theorem resolve_completes (succeeds : ReadSucceeds page s) : ∃ k frame u, resolve page s = .done (k, frame) u := by
  obtain ⟨answers, inside⟩ := succeeds
  cases hr : resolve page s with
  | done served u => exact ⟨_, _, u, rfl⟩
  | raised e u =>
    obtain ⟨-, failed, -⟩ := ensureResident_raised (resolve_raised hr).2
    obtain past | fails := bsAnswer_ioerror.mp failed
    · exact absurd inside (Nat.not_le_of_lt past)
    · exact nomatch answers.symm.trans fails
  | stuck =>
    obtain ⟨-, -, -, silent⟩ := resolve_stuck.mp hr
    exact nomatch answers.symm.trans silent

/-- A command that is no TRANSLATE in range with FAULT clear answers at once (rules R166, R167, R168, R170). -/
theorem exec_next_or_in_range (i : Instr) (s : State) :
    (∃ t, exec i s = .next t) ∨
      ∃ (p : PageNo) (o : Offset) (w : Bool), i = .translate (p.val * 256 + o.val) w ∧ s.fault = none := by
  cases i with
  | translateMalformed =>
    simp only [exec, execTranslateMalformed]
    split <;> exact .inl ⟨_, rfl⟩
  | report => exact .inl ⟨_, rfl⟩
  | translate addr w =>
    simp only [exec, execTranslate]
    split
    next => exact .inl ⟨_, rfl⟩
    next noPage =>
      split
      next lt =>
        exact .inr ⟨_, _, w, congrArg (Instr.translate · w) (address_split addr lt), by simpa [faultPage] using noPage⟩
      next => exact .inl ⟨_, rfl⟩

/-- A command answers or waits for the device; nothing else stops one (rules R67, R229). -/
theorem exec_next_or_blocked (i : Instr) (s : State) :
    (∃ t, exec i s = .next t) ∨ exec i s = .fault .backingStoreNeverAnswers := by
  obtain answers | ⟨p, o, w, rfl, clear⟩ := exec_next_or_in_range i s
  · exact .inl answers
  · rw [exec_translate_address p o w clear]
    cases resolve p s with
    | done => exact .inl ⟨_, rfl⟩
    | raised => exact .inl ⟨_, rfl⟩
    | stuck => exact .inr rfl

/-- A command that waits is a TRANSLATE in range with FAULT clear. -/
theorem translate_of_exec_blocked (blocked : exec i s = .fault .backingStoreNeverAnswers) :
    ∃ (p : PageNo) (o : Offset) (w : Bool), i = .translate (p.val * 256 + o.val) w ∧ s.fault = none :=
  (exec_next_or_in_range i s).resolve_left fun ⟨_, answers⟩ => nomatch answers.symm.trans blocked

/-- Such a TRANSLATE waits exactly when its page is in no slot, is invalid, lies inside the store, and the device never
answers (rules R66, R67). -/
theorem exec_translate_blocked {p : PageNo} {o : Offset} {w : Bool} (clear : s.fault = none) :
    exec (.translate (p.val * 256 + o.val) w) s = .fault .backingStoreNeverAnswers ↔
      (∀ j : SlotNo, s.tlb[j].page ≠ some p) ∧ s.pt[p] = none ∧ p.val * 256 + 256 ≤ s.bs.size ∧
        nextDraw s = .neverAnswers := by
  have stuck : resolve p s = .stuck ↔ _ := resolve_stuck
  rw [findSlot_eq_none] at stuck
  rw [exec_translate_address p o w clear]
  refine Iff.trans ?_ stuck
  cases resolve p s <;> simp [raise]

/-! ### Attaching a store -/

theorem perform_attach (store : BackingStore) (s : State) : perform (.attach store) s = attachStore store s := rfl

end Sys2Proof.Machine
end

section
/-! The statements of 20_memory.md. -/

namespace Sys2Proof.Machine

/-- Settles O53: the page stands in the frame that serves it, the frame holds the page's bytes, and the page table maps
the one to the other. -/
theorem translationsReturnTheBackingStoresBytes : Obligations.TranslationsReturnTheBackingStoresBytes := by
  intro s t va isWrite pa v inv clear h response
  cases exec_answered h with
  | plain r untranslated => exact absurd (Option.some.inj response) (untranslated pa v)
  | failed => cases response
  | @translated p o w k frame u command _ served =>
    have healthy := inv.healthy clear
    cases command
    rw [complete_response] at response
    cases response
    have sameOffset := (address_and_mask frame.val o).trans (address_and_mask p.val o).symm
    have mapped : (complete k frame o u).pt[p] = some frame := by
      rw [complete_pt]
      exact served.mapped healthy
    exact ⟨served.readByte_eq healthy o, sameOffset, p, frame, (address_shiftRight p.val o).symm,
      (address_shiftRight frame.val o).symm, mapped⟩

/-- Settles O54: no page of a full-size store is short, so step 2 is done, and the byte it leads to is the store's. -/
theorem everyAddressInRangeIsTranslated : Obligations.EveryAddressInRangeIsTranslated := by
  intro s va isWrite inv clear inRange full answers
  rw [address_split va (Nat.lt_succ_of_le inRange)]
  generalize pageOf ⟨va, _⟩ = p
  generalize offsetOf ⟨va, _⟩ = o
  obtain ⟨k, frame, u, done⟩ := resolve_completes ⟨answers, (page_fits p).trans full⟩
  have served := resolve_served done
  refine ⟨complete k frame o u, composePhysical frame o, ?_, ?_, ?_⟩
  · rw [exec_translate_address p o isWrite clear, done]
  · rw [complete_fault, served.fault_eq, clear]
  · rw [complete_response, served.readByte_eq (inv.healthy clear)]

/-- Settles O20: an invalid page that is resident now has just been filled. -/
theorem aFillPlacesThePageByteForByte : Obligations.AFillPlacesThePageByteForByte := by
  intro p f s t invalid h
  obtain ⟨valid, -⟩ | ⟨-, -, rfl, rfl⟩ := ensureResident_done h
  · exact nomatch invalid.symm.trans valid
  exact ⟨rfl, fun _ ho => memRead_filled_target s ho, fun _ outside => memRead_filled_outside s outside⟩

/-- Settles O26: a command answers or waits, and what waits is a TRANSLATE whose step 2 waits for the device. -/
theorem onlyASilentBackingStoreBlocksACommand : Obligations.OnlyASilentBackingStoreBlocksACommand := by
  intro i s
  refine ⟨exec_next_or_blocked i s, fun blocked => ?_, ?_⟩
  · obtain ⟨p, o, w, rfl, clear⟩ := translate_of_exec_blocked blocked
    exact ⟨p, o, w, rfl, clear, (exec_translate_blocked clear).mp blocked⟩
  · rintro ⟨p, o, w, rfl, clear, waits⟩
    exact (exec_translate_blocked clear).mpr waits

/-- Settles O48: attaching is decided by the fill count. -/
theorem aStoreIsAttachedOnlyBeforeTheFirstFill : Obligations.AStoreIsAttachedOnlyBeforeTheFirstFill := by
  intro s store rest input
  rw [step_of_inbox_cons input, perform_attach, attachStore]
  exact ⟨fun unfilled => if_pos (Fin.ext unfilled), fun filled => if_neg (filled ∘ congrArg Fin.val)⟩

end Sys2Proof.Machine
end

section
/-! SUPPORT. The command word as a number: what the decoder reads from it, one `↔` a kind of command, and the opcode
table's masks (rules R86, R94, R95). -/

namespace Sys2Proof

variable {w : Word64}

/-! ### The fields -/

theorem opField_toNat (w : Word64) : (opField w).toNat = w.toNat / 2 ^ 60 := by
  have hw := w.isLt
  rw [opField, BitVec.extractLsb'_toNat, Nat.shiftRight_eq_div_pow]
  omega

theorem rsvdField_toNat (w : Word64) : (rsvdField w).toNat = w.toNat / 2 ^ 34 % 2 ^ 26 := by
  rw [rsvdField, BitVec.extractLsb'_toNat, Nat.shiftRight_eq_div_pow]

theorem mField_eq (w : Word64) : mField w = decide (w.toNat / 2 ^ 33 % 2 = 1) := Nat.testBit_eq_decide_div_mod_eq

theorem wField_eq (w : Word64) : wField w = decide (w.toNat / 2 ^ 32 % 2 = 1) := Nat.testBit_eq_decide_div_mod_eq

theorem addrField_toNat (w : Word64) : (addrField w).toNat = w.toNat % 2 ^ 32 := by
  rw [addrField, BitVec.extractLsb'_toNat, Nat.shiftRight_zero]

theorem reportBits_toNat (w : Word64) : (reportBits w).toNat = w.toNat % 2 ^ 60 := by
  rw [reportBits, BitVec.extractLsb'_toNat, Nat.shiftRight_zero]

/-! ### The decoder -/

/-- Rule R94 with the fields as numbers. -/
theorem decode_eq (w : Word64) : decode w =
    if w.toNat / 2 ^ 60 = 1 ∧ w.toNat / 2 ^ 34 % 2 ^ 26 = 0 then
      if w.toNat / 2 ^ 33 % 2 = 1 then .command .translateMalformed
      else .command (.translate (w.toNat % 2 ^ 32) (decide (w.toNat / 2 ^ 32 % 2 = 1)))
    else if w.toNat / 2 ^ 60 = 2 ∧ w.toNat % 2 ^ 60 = 0 then .command .report
    else .illegal w := by
  simp only [decode, ← BitVec.toNat_inj, opField_toNat, rsvdField_toNat, mField_eq, wField_eq, addrField_toNat,
    reportBits_toNat, BitVec.toNat_ofNat, decide_eq_true_eq, BitVec.ofNat_eq_ofNat, Nat.zero_mod]

/-- A word decodes to a TRANSLATE exactly when it is the number the TRANSLATE's fields make up (rules R86, R88). -/
theorem decode_eq_translate_iff {addr : Nat} {isWrite : Bool} :
    decode w = .command (.translate addr isWrite) ↔
      addr < 2 ^ 32 ∧ w.toNat = 2 ^ 60 + isWrite.toNat * 2 ^ 32 + addr := by
  have hw := w.isLt
  have bit := isWrite.toNat_lt
  rw [decode_eq]
  split_ifs with head m report
  · exact iff_of_false nofun (by omega)
  · simp only [Decoded.command.injEq, Instr.translate.injEq]
    cases isWrite <;> simp only [decide_eq_true_eq, decide_eq_false_iff_not, Bool.toNat_false, Bool.toNat_true] <;> omega
  · exact iff_of_false nofun (by omega)
  · exact iff_of_false nofun (by omega)

/-- A word decodes to TRANSLATE_MALFORMED exactly when its 31 upper bits are that command's (rule R90). -/
theorem decode_eq_translateMalformed_iff :
    decode w = .command .translateMalformed ↔ w.toNat / 2 ^ 33 = 2 ^ 27 + 1 := by
  have hw := w.isLt
  rw [decode_eq]
  split_ifs with head m report
  · exact iff_of_true rfl (by omega)
  · exact iff_of_false nofun (by omega)
  · exact iff_of_false nofun (by omega)
  · exact iff_of_false nofun (by omega)

/-- One word decodes to REPORT (rule R92). -/
theorem decode_eq_report_iff : decode w = .command .report ↔ w.toNat = 2 ^ 61 := by
  have hw := w.isLt
  rw [decode_eq]
  split_ifs with head m report
  · exact iff_of_false nofun (by omega)
  · exact iff_of_false nofun (by omega)
  · exact iff_of_true rfl (by omega)
  · exact iff_of_false nofun (by omega)

/-- An illegal word is handed on as it is (rule R93). -/
theorem eq_of_decode_eq_illegal {v : Word64} (h : decode w = .illegal v) : v = w := by
  rw [decode_eq] at h
  split_ifs at h
  exact (Decoded.illegal.inj h).symm

/-! ### The encoder -/

/-- Below 2^32 the ADDR field is the address (rule R88). -/
theorem encodeAddr_toNat {addr : Nat} (narrow : addr < 2 ^ 32) : (encodeAddr addr).toNat = addr := by
  rw [encodeAddr, BitVec.toNat_ofNat]
  omega

/-- The word of a TRANSLATE as a number (rules R86, R88). -/
theorem encode_translate_toNat {addr : Nat} (narrow : addr < 2 ^ 32) (isWrite : Bool) :
    (encode (.translate addr isWrite)).toNat = 2 ^ 60 + isWrite.toNat * 2 ^ 32 + addr := by
  rw [encode, commandWord_toNat, encodeAddr_toNat narrow]
  simp

/-- A wide address has the word of 0xFFFFFFFF (rule R89). -/
theorem encode_translate_of_wide {addr : Nat} (wide : 2 ^ 32 ≤ addr) (isWrite : Bool) :
    encode (.translate addr isWrite) = encode (.translate 0xFFFFFFFF isWrite) := by
  have saturated : min addr 0xFFFFFFFF = min 0xFFFFFFFF 0xFFFFFFFF := by omega
  rw [encode, encode, encodeAddr, encodeAddr, saturated]

/-! ### The opcode table -/

/-- The table's first mask keeps the 31 upper bits: OP, RSVD and M (rule R95). -/
theorem upper_mask_toNat (w : Word64) : (w &&& 0xFFFFFFFE00000000).toNat = w.toNat / 2 ^ 33 * 2 ^ 33 := by
  have hw := w.isLt
  have mask : (0xFFFFFFFE00000000 : Word64) = BitVec.allOnes 64 <<< 33 := by decide
  rw [mask, ← BitVec.shiftLeft_ushiftRight, BitVec.toNat_shiftLeft, BitVec.toNat_ushiftRight,
    Nat.shiftRight_eq_div_pow, Nat.shiftLeft_eq]
  omega

theorem translate_row_iff :
    w &&& 0xFFFFFFFE00000000 = 0x1000000000000000 ↔ ∃ addr isWrite, decode w = .command (.translate addr isWrite) := by
  have value : (0x1000000000000000 : Word64).toNat = 2 ^ 60 := rfl
  rw [← BitVec.toNat_inj, upper_mask_toNat, value]
  simp only [decode_eq_translate_iff]
  constructor
  · intro upper
    refine ⟨w.toNat % 2 ^ 32, (w.toNat / 2 ^ 32).testBit 0, Nat.mod_lt _ (by decide), ?_⟩
    rw [Nat.toNat_testBit]
    omega
  · rintro ⟨addr, isWrite, narrow, made⟩
    have := isWrite.toNat_lt
    omega

theorem translateMalformed_row_iff :
    w &&& 0xFFFFFFFE00000000 = 0x1000000200000000 ↔ decode w = .command .translateMalformed := by
  have value : (0x1000000200000000 : Word64).toNat = 2 ^ 60 + 2 ^ 33 := rfl
  rw [← BitVec.toNat_inj, upper_mask_toNat, value, decode_eq_translateMalformed_iff]
  omega

theorem report_row_iff : w &&& 0xFFFFFFFFFFFFFFFF = 0x2000000000000000 ↔ decode w = .command .report := by
  have mask : (0xFFFFFFFFFFFFFFFF : Word64) = BitVec.allOnes 64 := by decide
  rw [mask, BitVec.and_allOnes, decode_eq_report_iff, ← BitVec.toNat_inj]
  rfl

/-- One row matches a word that decodes to a command, and none an illegal word (rule R95). -/
theorem opcodeRows_filter_covers_length (w : Word64) :
    (opcodeRows.filter fun r => r.covers w).length = if decode w = .illegal w then 0 else 1 := by
  have translate := translate_row_iff (w := w)
  have malformed := translateMalformed_row_iff (w := w)
  have report := report_row_iff (w := w)
  cases decoded : decode w with
  | illegal v =>
    simp [decoded] at translate malformed report
    simp [opcodeRows, OpcodeRow.covers, translate, malformed, report, eq_of_decode_eq_illegal decoded]
  | command i =>
    cases i <;> simp [decoded] at translate malformed report <;>
      simp [opcodeRows, OpcodeRow.covers, translate, malformed, report]

end Sys2Proof
end

section
/-! SUPPORT. The response words as numbers (rules R97, R98). -/

namespace Sys2Proof.Machine

/-- A response word is its status and its low bits (rule R97). -/
theorem responseWord_toNat (status : BitVec 4) (low : BitVec 32) :
    (responseWord status low).toNat = status.toNat * 2 ^ 60 + low.toNat := by
  have hl := low.isLt
  simp only [responseWord, BitVec.toNat_append, BitVec.ofNat_eq_ofNat, BitVec.toNat_ofNat, Nat.zero_mod, Nat.or_zero]
  rw [← Nat.shiftLeft_add_eq_or_of_lt hl]
  simp only [Nat.shiftLeft_eq]
  omega

theorem responseWord_eq (status : BitVec 4) (low : BitVec 32) :
    responseWord status low = BitVec.ofNat 64 (status.toNat * 2 ^ 60 + low.toNat) := by
  rw [← responseWord_toNat, BitVec.ofNat_toNat, BitVec.setWidth_eq]

/-- The status is read from bits [63:60]. -/
theorem responseWord_status (status : BitVec 4) (low : BitVec 32) :
    (responseWord status low).toNat / 2 ^ 60 = status.toNat := by
  have hl := low.isLt
  rw [responseWord_toNat]
  omega

/-- The low bits of a TRANSLATED word are the physical address and, below it, the value's two's complement pattern. -/
theorem translatedBits_toNat (pa : PAddr) (value : Int) :
    (translatedBits pa value).toNat = pa.val * 256 + (value % 256).toNat := by
  have hpa : pa.val < 32768 := pa.isLt
  have hv : (BitVec.ofInt 8 value).toNat = (value % 256).toNat := BitVec.toNat_ofInt value
  have hlt : (BitVec.ofInt 8 value).toNat < 2 ^ 8 := (BitVec.ofInt 8 value).isLt
  simp only [translatedBits, BitVec.toNat_append, BitVec.ofNat_eq_ofNat, BitVec.toNat_ofNat, Nat.zero_mod,
    Nat.zero_shiftLeft, Nat.zero_or]
  rw [← Nat.shiftLeft_add_eq_or_of_lt hlt, hv, Nat.shiftLeft_eq]
  omega

theorem pageBits32_toNat (page : PageNo) : (pageBits32 page).toNat = page.val := by
  have hp : page.val < 256 := page.isLt
  rw [pageBits32, BitVec.toNat_ofNat]
  omega

theorem reportedBits_toNat (fault : Option PageNo) :
    (reportedBits fault).toNat = fault.elim 0 fun page => 256 + page.val := by
  cases fault with
  | none => rfl
  | some page =>
    have hp : page.val < 256 := page.isLt
    simp only [reportedBits, BitVec.toNat_ofNat, Option.elim_some]
    omega

theorem reportedStatus_toNat (rates : Rates) :
    (reportedStatus rates).toNat = if rates = .noTranslations then 2 else 1 := by
  cases rates <;> rfl

/-- The counters of a REPORTED response fit its words (rule R98). -/
abbrev CountersFit (t pf h : Nat) : Prop := t < 2 ^ 64 ∧ pf < 2 ^ 64 ∧ h < 2 ^ 64

/-- A REPORTED response whose counters fit is word 0 and the counters (rule R98). -/
theorem pack_reported {t pf h : Nat} (fits : CountersFit t pf h) (fault : Option PageNo) (rates : Rates) :
    (Resp.reported t pf h fault rates).pack = some
      [BitVec.ofNat 64 ((if rates = .noTranslations then 2 else 1) * 2 ^ 60 +
          fault.elim 0 fun page => 256 + page.val),
        BitVec.ofNat 64 t, BitVec.ofNat 64 pf, BitVec.ofNat 64 h] := by
  rw [Resp.pack, if_pos fits, responseWord_eq, reportedStatus_toNat, reportedBits_toNat]

/-- A REPORTED response has no words exactly when a counter does not fit (decision D23). -/
theorem pack_reported_eq_none_iff {t pf h : Nat} {fault : Option PageNo} {rates : Rates} :
    (Resp.reported t pf h fault rates).pack = none ↔ ¬ CountersFit t pf h := by
  rw [Resp.pack]
  split_ifs with fits
  · exact iff_of_false nofun (not_not_intro fits)
  · exact iff_of_true rfl fits

/-- A REPORT has no figures exactly when nothing was translated (rule R169). -/
theorem ratesOf_eq_noTranslations_iff {t pf h : Nat} : ratesOf t pf h = .noTranslations ↔ t = 0 := by
  rw [ratesOf]
  split_ifs with untranslated
  · exact iff_of_true rfl untranslated
  · exact iff_of_false nofun untranslated

/-- The receiver reads the counters back from the words and computes REPORT's own figures (rule R98). -/
theorem receivedRates_counters {t pf h : Nat} (fits : CountersFit t pf h) (w : Word64) :
    receivedRates [w, BitVec.ofNat 64 t, BitVec.ofNat 64 pf, BitVec.ofNat 64 h] = some (ratesOf t pf h) := by
  obtain ⟨ht, hpf, hh⟩ := fits
  simp only [receivedRates, BitVec.toNat_ofNat, Nat.mod_eq_of_lt ht, Nat.mod_eq_of_lt hpf, Nat.mod_eq_of_lt hh]

/-- Word 0 of every response has one of the table's statuses (rule R97). -/
theorem pack_head {r : Resp} {w : Word64} {ws : List Word64} (packed : r.pack = some (w :: ws)) :
    ∃ status low, w = responseWord status low ∧ status.toNat ∈ [0, 1, 2, 8, 9, 10, 11, 12] := by
  cases r with
  | reported t pf h fault rates =>
    by_cases fits : CountersFit t pf h
    · rw [Resp.pack, if_pos fits] at packed
      cases packed
      exact ⟨_, _, rfl, by rw [reportedStatus_toNat]; split <;> decide⟩
    · rw [pack_reported_eq_none_iff.mpr fits] at packed
      cases packed
  | _ =>
    cases packed
    exact ⟨_, _, rfl, by decide⟩

end Sys2Proof.Machine
end

section
/-! SUPPORT. The host's text: records, and the words and addresses of a command line (rules R100, R101). -/

namespace Sys2Proof.Machine

/-! ### Records -/

/-- The leading digits of a record are the digits before the first other character. -/
theorem takeWhile_digits_append {digits rest : List Char} (hdigits : ∀ c ∈ digits, c.isDigit = true)
    (hrest : ∀ c, rest.head? = some c → c.isDigit = false) : (digits ++ rest).takeWhile Char.isDigit = digits := by
  rw [List.takeWhile_append_of_pos hdigits]
  cases rest with
  | nil => simp
  | cons c rest => simp [hrest c rfl]

theorem recordCommand_of_leading_digits {record digits : List Char} (leading : record.takeWhile Char.isDigit = digits)
    (nonempty : digits ≠ []) : recordCommand record = .translate (decimalValue digits) false := by
  subst leading
  unfold recordCommand
  split
  next empty => exact absurd empty nonempty
  next => rfl

theorem recordCommand_of_no_digit {record : List Char} (leading : record.takeWhile Char.isDigit = []) :
    recordCommand record = .translateMalformed := by
  rw [recordCommand, leading]

/-! ### The words of a line -/

/-- A character that stands inside a word: neither white space nor the start of a comment. -/
abbrev InWord (c : Char) : Prop := c ≠ ';' ∧ isBlank c = false

/-- A run of word characters is put in front of the word in progress. -/
theorem foldr_splitStep_word {word : List Char} (inWord : ∀ c ∈ word, InWord c) (acc : List Char × List (List Char)) :
    word.foldr splitStep acc = (word ++ acc.1, acc.2) := by
  induction word with
  | nil => rfl
  | cons c word ih =>
    obtain ⟨⟨-, solid⟩, later⟩ := List.forall_mem_cons.mp inWord
    rw [List.foldr_cons, ih later, splitStep, solid]
    rfl

/-- A comment adds no word (rule R100). -/
theorem lineWords_comment (line comment : List Char) : lineWords (line ++ ';' :: comment) = lineWords line := by
  have cut : (line ++ ';' :: comment).takeWhile (· ≠ ';') = line.takeWhile (· ≠ ';') := by
    rw [List.takeWhile_append]
    split
    next whole =>
      rw [List.takeWhile_cons_of_neg (by decide), List.append_nil, (List.takeWhile_prefix _).eq_of_length whole]
    next => rfl
  rw [lineWords, lineWords, cut]

/-- A line without a comment is split from its right end. -/
theorem lineWords_of_no_comment {line : List Char} (noComment : ∀ c ∈ line, c ≠ ';') :
    lineWords line = pushWord (line.foldr splitStep ([], [])).1 (line.foldr splitStep ([], [])).2 := by
  have uncut : line.takeWhile (· ≠ ';') = line := List.takeWhile_eq_self_iff.mpr (by simpa using noComment)
  rw [lineWords, uncut]

/-- A line of two words with a space between them. -/
theorem lineWords_two_words {first second : List Char} (hfirst : first ≠ []) (hsecond : second ≠ [])
    (inFirst : ∀ c ∈ first, InWord c) (inSecond : ∀ c ∈ second, InWord c) :
    lineWords (first ++ ' ' :: second) = [first, second] := by
  have noComment : ∀ c ∈ first ++ ' ' :: second, c ≠ ';' := by
    simp only [List.forall_mem_append, List.forall_mem_cons]
    exact ⟨fun c hc => (inFirst c hc).1, by decide, fun c hc => (inSecond c hc).1⟩
  have space : splitStep ' ' (second, []) = ([], [second]) := by simp [splitStep, isBlank, pushWord, hsecond]
  rw [lineWords_of_no_comment noComment, List.foldr_append, List.foldr_cons, foldr_splitStep_word inSecond,
    List.append_nil, space, foldr_splitStep_word inFirst, List.append_nil, pushWord, if_neg hfirst]

/-! ### Addresses -/

theorem inWord_of_isHexDigit {c : Char} (digit : isHexDigit c = true) : InWord c := by
  refine ⟨?_, Bool.eq_false_iff.mpr fun blank => ?_⟩
  · rintro rfl
    exact absurd digit (by decide)
  · simp only [isBlank, Bool.or_eq_true, decide_eq_true_eq] at blank
    obtain ((rfl | rfl) | rfl) | rfl := blank <;> exact absurd digit (by decide)

theorem isHexDigit_of_isDigit {c : Char} (digit : c.isDigit = true) : isHexDigit c = true := by
  simp [isHexDigit, digit]

theorem parseAddr_decimal {digits : List Char} (nonempty : digits ≠ []) (hdigits : ∀ c ∈ digits, c.isDigit = true) :
    parseAddr digits = some (decimalValue digits) := by
  unfold parseAddr
  split
  next => exact absurd (hdigits 'x' (by simp)) (by decide)
  next => exact if_pos ⟨nonempty, List.all_eq_true.mpr hdigits⟩

theorem parseAddr_hexadecimal {digits : List Char} (nonempty : digits ≠ [])
    (hdigits : ∀ c ∈ digits, isHexDigit c = true) : parseAddr ('0' :: 'x' :: digits) = some (hexValue digits) :=
  if_pos ⟨nonempty, List.all_eq_true.mpr hdigits⟩

/-- The hexadecimal digits by value, the capital ones last. -/
def hexDigitChars : List Char :=
  ['0', '1', '2', '3', '4', '5', '6', '7', '8', '9', 'a', 'b', 'c', 'd', 'e', 'f', 'A', 'B', 'C', 'D', 'E', 'F']

/-- The value of a hexadecimal digit by its place in the list. -/
def hexPlaceValue (c : Char) : Nat :=
  if hexDigitChars.idxOf c < 16 then hexDigitChars.idxOf c else hexDigitChars.idxOf c - 6

/-- The model's hexadecimal digits and their values, character by character. -/
theorem hexDigitValue_eq_place {c : Char} (hc : c ∈ hexDigitChars) :
    isHexDigit c = true ∧ hexDigitValue c = hexPlaceValue c := by
  have all : hexDigitChars.all (fun c => isHexDigit c && hexDigitValue c == hexPlaceValue c) = true := by decide
  simpa using List.all_eq_true.mp all c hc

theorem hexValue_eq_foldl_place {digits : List Char} (hdigits : ∀ c ∈ digits, c ∈ hexDigitChars) :
    hexValue digits = digits.foldl (fun v c => 16 * v + hexPlaceValue c) 0 :=
  List.foldl_ext _ _ _ fun v c hc => congrArg (16 * v + ·) (hexDigitValue_eq_place (hdigits c hc)).2

/-! ### Command lines -/

/-- A line of a TRANSLATE mnemonic and an address (rule R100). -/
theorem assemble_address_line {addr : List Char} {a : Nat} (parsed : parseAddr addr = some a)
    (inWord : ∀ c ∈ addr, InWord c) :
    assemble (kwTranslate ++ ' ' :: addr) = some (.translate a false) ∧
      assemble (kwTranslateW ++ ' ' :: addr) = some (.translate a true) := by
  have nonempty : addr ≠ [] := by
    rintro rfl
    cases parsed
  have inTranslate : ∀ c ∈ kwTranslate, InWord c := by simp [kwTranslate, InWord, isBlank]
  have inTranslateW : ∀ c ∈ kwTranslateW, InWord c := by simp [kwTranslateW, kwTranslate, InWord, isBlank]
  have other : kwTranslateW ≠ kwTranslate := by decide
  constructor
  · rw [assemble, lineWords_two_words (by decide) nonempty inTranslate inWord]
    simp [parsed]
  · rw [assemble, lineWords_two_words (by decide) nonempty inTranslateW inWord]
    simp [parsed, other]

/-- A line that assembles begins with a mnemonic (rule R100). -/
theorem lineWords_of_assemble {line : List Char} {i : Instr} (h : assemble line = some i) :
    ∃ word rest, lineWords line = word :: rest ∧
      word ∈ [kwTranslate, kwTranslateW, kwTranslateMalformed, kwReport] := by
  unfold assemble at h
  split at h
  next word words =>
    refine ⟨word, [], words, ?_⟩
    split_ifs at h with malformed report <;> simp [*]
  next word addr words =>
    refine ⟨word, [addr], words, ?_⟩
    split_ifs at h with translate translateW <;> simp [*]
  next => cases h

end Sys2Proof.Machine
end

section
/-! SUPPORT. What a command leaves of the host's queues, and which replies can be packed (rules R96, R98, R99). -/

namespace Sys2Proof.Machine

variable {s t u : State} {page : PageNo} {k : SlotNo} {frame : FrameNo} {i : Instr}

theorem Served.queues_eq (h : Served page s k frame u) : u.inbox = s.inbox ∧ u.sent = s.sent := by
  cases h <;> simp [filled, fillAndMap, afterTarget]

/-- A command takes no input and gives no reply itself. -/
theorem exec_keeps_queues (h : exec i s = .next t) : t.inbox = s.inbox ∧ t.sent = s.sent := by
  cases exec_answered h with
  | plain => exact ⟨rfl, rfl⟩
  | translated _ _ served => simpa [complete] using served.queues_eq
  | failed => simp [fillFailed, abandonFill, afterTarget]

/-! ### Commands that are answered at once -/

/-- A faulted block answers a TRANSLATE with ERR_FAULTED (rule R170). -/
theorem exec_translate_of_fault {e : FaultRecord} (set : s.fault = some e) (addr : Nat) (w : Bool) :
    exec (.translate addr w) s = .next (respond (.errFaulted e.page) s) := by
  simp [exec, execTranslate, faultPage, set, raise]

/-- An address out of range is rejected with the exact integer (rule R166). -/
theorem exec_translate_out_of_range (clear : s.fault = none) {addr : Nat} (outside : vspace ≤ addr) (w : Bool) :
    exec (.translate addr w) s = .next (respond (.errAddressOutOfRange addr) s) := by
  simp [exec, execTranslate, faultPage, clear, raise, Nat.not_lt.mpr outside]

/-- REPORT answers the counters and FAULT (rule R168). -/
theorem exec_report (s : State) : exec .report s = .next (respond
    (.reported s.stat.translated s.stat.pageFaults s.stat.tlbHits (faultPage s)
      (ratesOf s.stat.translated s.stat.pageFaults s.stat.tlbHits)) s) := rfl

/-! ### Packing a reply -/

/-- Every command but REPORT is answered with a response that has words (rules R97, R98). -/
theorem exec_response_packs (other : i ≠ .report) (h : exec i s = .next t) :
    ∃ r ws, t.response = some r ∧ r.pack = some ws := by
  cases i with
  | report => exact absurd rfl other
  | translateMalformed =>
    simp only [exec, execTranslateMalformed] at h
    split at h <;> cases h <;> exact ⟨_, _, rfl, rfl⟩
  | translate addr w =>
    cases fault : s.fault with
    | some e =>
      cases (exec_translate_of_fault fault addr w).symm.trans h
      exact ⟨_, _, rfl, rfl⟩
    | none =>
      obtain inside | outside := Nat.lt_or_ge addr vspace
      · rw [address_split addr inside] at h
        cases translate_answered fault h with
        | plain _ _ rejected => exact absurd fault (rejected _ _ w rfl)
        | translated => exact ⟨_, _, complete_response _, rfl⟩
        | failed => exact ⟨_, _, rfl, rfl⟩
      · cases (exec_translate_out_of_range fault outside w).symm.trans h
        exact ⟨_, _, rfl, rfl⟩

/-- No reply in words is refused but REPORT's (rule R98). -/
theorem report_of_replyWords_refused {e : Refusal} (h : replyWords (exec i s) = .refused e) : i = .report := by
  by_contra other
  obtain ⟨t, answer⟩ | blocked := exec_next_or_blocked i s
  · obtain ⟨r, ws, response, packed⟩ := exec_response_packs other answer
    rw [answer, replyWords_next response packed] at h
    cases h
  · rw [blocked, replyWords_fault] at h
    cases h

/-- A reply in the abstract form is never refused (rule R98). -/
theorem replyAbstract_exec_ne_refused (i : Instr) (s : State) (e : Refusal) : replyAbstract (exec i s) ≠ .refused e := by
  obtain ⟨t, answer⟩ | blocked := exec_next_or_blocked i s
  · obtain ⟨r, response⟩ := exec_response answer
    rw [answer, replyAbstract_next response]
    exact nofun
  · rw [blocked, replyAbstract_fault]
    exact nofun

/-- A step that is refused as not packable is on a REPORT word. -/
theorem report_word_of_step_refused (h : step s = .refused .reportCounterNotPackable) :
    ∃ (w : Word64) (rest : List HostInput), s.inbox = .word w :: rest ∧ decode w = .command .report := by
  cases input : s.inbox with
  | nil => simp [step, input] at h
  | cons next rest =>
    rw [step_of_inbox_cons input] at h
    cases next with
    | reset => cases h
    | attach store =>
      rw [perform_attach, attachStore] at h
      split at h <;> cases h
    | command i => exact absurd h (replyAbstract_exec_ne_refused i _ _)
    | word w =>
      cases decoded : decode w with
      | illegal v =>
        rw [perform_word, decoded, performDecoded_illegal, replyWords_next rfl rfl] at h
        cases h
      | command i =>
        rw [perform_word, decoded, performDecoded_command] at h
        exact ⟨w, rest, rfl, by rw [decoded, report_of_replyWords_refused h]⟩

/-- A reply in words is refused exactly when the response has no words (rule R98). -/
theorem replyWords_eq_refused_iff {r : Resp} (response : t.response = some r) :
    replyWords (.next t) = .refused .reportCounterNotPackable ↔ r.pack = none := by
  cases packed : r.pack with
  | some ws =>
    rw [replyWords_next response packed]
    exact iff_of_false nofun nofun
  | none => simp [replyWords, response, packed]

end Sys2Proof.Machine
end

section
/-! The statements of 30_encoding.md. -/

namespace Sys2Proof.Machine

/-- Settles O4: a command's word is the number its fields make up, and the decoder reads those fields from it. -/
theorem decodingAnEncodedCommandGivesItBack : Obligations.DecodingAnEncodedCommandGivesItBack := by
  intro i wellFormed
  cases i with
  | translate addr isWrite =>
    have narrow : addr < 2 ^ 32 := of_decide_eq_true wellFormed
    exact decode_eq_translate_iff.mpr ⟨narrow, encode_translate_toNat narrow isWrite⟩
  | translateMalformed => decide
  | report => decide

/-- Settles O2: the decoder with its fields as numbers. -/
theorem decoderFollowsItsRule : Obligations.DecoderFollowsItsRule := by
  intro w
  simp only [decode_eq]
  refine ⟨fun ⟨op, rsvd, m⟩ => ?_, fun ⟨op, rsvd, m⟩ => ?_, fun ⟨op, zeros⟩ => ?_, fun noTranslate noReport => ?_⟩
  · rw [if_pos ⟨op, rsvd⟩, if_pos m]
  · rw [if_pos ⟨op, rsvd⟩, if_neg (by omega)]
  · rw [if_neg (by omega), if_pos ⟨op, zeros⟩]
  · rw [if_neg noTranslate, if_neg noReport]

/-- Settles O3: each row's mask and match values pick out the words of its command, and so no word has two rows. -/
theorem opcodeRowsAgreeWithTheDecoder : Obligations.OpcodeRowsAgreeWithTheDecoder := by
  intro w
  refine ⟨translate_row_iff, translateMalformed_row_iff, report_row_iff, rfl, ?_⟩
  rw [opcodeRows_filter_covers_length]
  split_ifs with illegal <;> simp [illegal]

/-- Settles O5: a TRANSLATE or a REPORT word is determined by the command it decodes to. -/
theorem encodingADecodedCommandGivesItBack : Obligations.EncodingADecodedCommandGivesItBack := by
  intro w i decoded other
  apply BitVec.eq_of_toNat_eq
  cases i with
  | translate addr isWrite =>
    obtain ⟨narrow, made⟩ := decode_eq_translate_iff.mp decoded
    rw [encode_translate_toNat narrow, made]
  | translateMalformed => exact absurd rfl other
  | report =>
    rw [decode_eq_report_iff.mp decoded]
    rfl

/-- Settles O6: the word of a wide address is that of 0xFFFFFFFF, and both addresses are out of range. -/
theorem wideAddressesSaturateInTheWordForm : Obligations.WideAddressesSaturateInTheWordForm := by
  intro addr isWrite s wide
  constructor
  · rw [encode_translate_of_wide wide]
    exact decodingAnEncodedCommandGivesItBack (.translate 0xFFFFFFFF isWrite) rfl
  · intro clear
    exact ⟨exec_translate_out_of_range clear (by decide) isWrite,
      exec_translate_out_of_range clear (le_trans (by decide) wide) isWrite⟩

/-- Settles O8: each response's word 0 is its status and its low bits. -/
theorem responseWordsFollowTheStatusTable : Obligations.ResponseWordsFollowTheStatusTable := by
  refine ⟨fun pa v _ _ => ?_, fun t pf h fault rates ht hpf hh => ?_, fun addr narrow => ?_, rfl, fun p => ?_, rfl,
    fun p => ?_, fun r w ws packed => ?_⟩
  · rw [Resp.pack, responseWord_eq, translatedBits_toNat]
    simp
  · rw [pack_reported ⟨ht, hpf, hh⟩]
    cases fault <;> exact ⟨_, rfl, rfl⟩
  · rw [Resp.pack, responseWord_eq, encodeAddr_toNat narrow]
    rfl
  · rw [Resp.pack, responseWord_eq, pageBits32_toNat]
    rfl
  · rw [Resp.pack, responseWord_eq, pageBits32_toNat]
    rfl
  · obtain ⟨status, low, rfl, inTable⟩ := pack_head packed
    rwa [responseWord_status]

/-- Settles O9: REPORT's response is packed exactly when the counters fit, and the receiver reads them back. -/
theorem reportedResponsesAreFourWords : Obligations.ReportedResponsesAreFourWords := by
  intro s t r answer response
  rw [exec_report] at answer
  cases answer
  cases response
  refine ⟨fun fits => ?_, pack_reported_eq_none_iff.mpr⟩
  refine ⟨_, pack_reported fits _ _, ?_, receivedRates_counters fits _⟩
  simp only [ratesOf_eq_noTranslations_iff, faultPage]
  cases s.fault <;> rfl

/-- Settles O10: the leading digits decide. -/
theorem recordsBecomeCommands : Obligations.RecordsBecomeCommands := by
  constructor
  · intro digits rest nonempty hdigits hrest
    exact recordCommand_of_leading_digits (takeWhile_digits_append hdigits hrest) nonempty
  · intro record noDigit
    exact recordCommand_of_no_digit (takeWhile_digits_append (digits := []) nofun noDigit)

/-- Settles O11: the words of each line, and the address that its second word is. -/
theorem commandLinesAssemble : Obligations.CommandLinesAssemble := by
  refine ⟨fun digits nonempty hdigits => ?_, fun digits => ?_, by decide, by decide, fun line comment => ?_,
    fun line i => lineWords_of_assemble⟩
  · simp only [List.append_assoc]
    exact assemble_address_line (parseAddr_decimal nonempty hdigits)
      fun c hc => inWord_of_isHexDigit (isHexDigit_of_isDigit (hdigits c hc))
  · intro hexDigits place value nonempty hdigits
    have hhex : ∀ c ∈ digits, isHexDigit c = true := fun c hc => (hexDigitValue_eq_place (hdigits c hc)).1
    have value_eq : hexValue digits = value := hexValue_eq_foldl_place hdigits
    have inWord : ∀ c ∈ '0' :: 'x' :: digits, InWord c := by
      simp only [List.forall_mem_cons]
      exact ⟨by decide, by decide, fun c hc => inWord_of_isHexDigit (hhex c hc)⟩
    rw [← value_eq, List.append_assoc, List.append_assoc]
    exact assemble_address_line (parseAddr_hexadecimal nonempty hhex) inWord
  · rw [assemble, assemble, lineWords_comment]

/-- Settles O46: a command leaves the queues as they are, and the step posts its reply. -/
theorem oneReplyPerCommandInOrder : Obligations.OneReplyPerCommandInOrder := by
  intro s t h
  cases step_stepped h with
  | idle empty => simp [empty]
  | reset input => simp [input]
  | attach input => simp [input]
  | word input _ answer =>
    obtain ⟨inbox, sent⟩ := exec_keeps_queues answer
    simp [input, inbox, sent]
  | command input answer =>
    obtain ⟨inbox, sent⟩ := exec_keeps_queues answer
    simp [input, inbox, sent]
  | illegal input => simp [input]

/-- Settles O47: only a REPORT's reply is ever refused, and that one exactly when a counter does not fit. -/
theorem onlyUnpackableReportsAreRefused : Obligations.OnlyUnpackableReportsAreRefused := by
  intro s
  have refused_iff {w : Word64} {rest : List HostInput} (input : s.inbox = .word w :: rest)
      (decoded : decode w = .command .report) : step s = .refused .reportCounterNotPackable ↔
        2 ^ 64 ≤ s.stat.translated ∨ 2 ^ 64 ≤ s.stat.pageFaults ∨ 2 ^ 64 ≤ s.stat.tlbHits := by
    rw [step_of_word input decoded, exec_report, replyWords_eq_refused_iff rfl, pack_reported_eq_none_iff, CountersFit,
      not_and_or, not_and_or, not_lt, not_lt, not_lt]
  constructor
  · intro refused
    obtain ⟨w, rest, input, decoded⟩ := report_word_of_step_refused refused
    exact ⟨⟨w, rest, input, decoded⟩, (refused_iff input decoded).mp refused⟩
  · rintro ⟨⟨w, rest, input, decoded⟩, unfit⟩
    exact (refused_iff input decoded).mpr unfit

/-- Settles O7: the nine words, decoded. -/
theorem sampleWordsDecodeAsTheSpecSays : Obligations.SampleWordsDecodeAsTheSpecSays := by
  unfold Obligations.SampleWordsDecodeAsTheSpecSays
  decide

/-- Settles O31: no step of TRANSLATE reads is_write. -/
theorem isWriteChangesNothing : Obligations.IsWriteChangesNothing := fun _ _ => rfl

end Sys2Proof.Machine
end

section
/-! SUPPORT. A run of promotions (rules R116, R117), places in an order, and where LOOKUP finds a page (rule R130). -/

namespace Sys2Proof.Machine

variable {n : Nat} {order : Order n} {i : Fin n}

/-- A run of promotions leaves the indices never promoted in their order, and then the promoted ones in the order of
their last promotion (rule R117). -/
theorem foldl_promote_toList (promoted : List (Fin n)) (h : OrderWf order) :
    (promoted.foldl promote order).toList =
      (order.toList.filter fun x => decide (x ∉ promoted)) ++ promoted.dedup := by
  induction promoted generalizing order with
  | nil => simp
  | cons i later ih =>
    have others : (order.toList.filter (· != i)).filter (fun x => decide (x ∉ later)) =
        order.toList.filter fun x => decide (x ∉ i :: later) := by
      rw [List.filter_filter]
      exact List.filter_congr fun x _ => by rw [Bool.eq_iff_iff]; simp [and_comm]
    rw [List.foldl_cons, ih (promote_wf h i), promote_eq_filter h, List.filter_append, others, List.append_assoc]
    by_cases again : i ∈ later
    · rw [List.dedup_cons_of_mem again, List.filter_singleton]
      simp [again]
    · rw [List.dedup_cons_of_notMem again, List.filter_singleton]
      simp [again]

/-- An index promoted and not promoted since stands behind the others that have not been promoted since (rule R116). -/
theorem idxOf_foldl_promote (h : OrderWf order) {x : Fin n} {since : List (Fin n)} (notSince : x ∉ since) :
    (since.foldl promote (promote order x)).toList.idxOf x =
      (order.toList.filter fun y => decide (y ≠ x ∧ y ∉ since)).length := by
  have stands := foldl_promote_toList (x :: since) h
  rw [List.foldl_cons, List.dedup_cons_of_notMem notSince] at stands
  have apart : x ∉ order.toList.filter fun y => decide (y ∉ x :: since) := by simp
  rw [stands, List.idxOf_append_of_notMem apart, List.idxOf_cons_self, Nat.add_zero]
  simp only [List.mem_cons, not_or, ne_eq]

/-- A permutation of the indices holds as many of a kind as there are. -/
theorem OrderWf.length_filter (h : OrderWf order) (kind : Fin n → Bool) :
    (order.toList.filter kind).length = ((List.finRange n).filter kind).length := by
  have perm : order.toList.Perm (List.finRange n) :=
    (List.perm_ext_iff_of_nodup h (List.nodup_finRange n)).mpr fun i => iff_of_true (h.mem i) (List.mem_finRange i)
  exact (perm.filter kind).length_eq

/-- The index PEEK_LEAST gives stands at position 0 (rule R113). -/
theorem idxOf_peekLeast [NeZero n] (order : Order n) : order.toList.idxOf (peekLeast order) = 0 := by
  obtain ⟨rest, cons⟩ := List.head?_eq_some_iff.mp (toList_head order)
  rw [cons, List.idxOf_cons_self]

/-- The index just promoted is the most recently used one (rule R112). -/
theorem promote_getLast? (h : OrderWf order) (i : Fin n) : (promote order i).toList.getLast? = some i := by
  rw [promote_toList h, List.getLast?_concat]

/-- A promotion of the most recently used index changes nothing (rule R112). -/
theorem promote_of_getLast? (last : order.toList.getLast? = some i) : promote order i = order := if_pos last

/-- An index of a permutation that is not the last has others behind it. -/
theorem OrderWf.split_at (wf : OrderWf order) (notLast : order.toList.getLast? ≠ some i) :
    ∃ front j back, order.toList = front ++ i :: j :: back ∧ i ∉ front ∧ i ∉ j :: back := by
  obtain ⟨front, back, split⟩ := List.append_of_mem (wf.mem i)
  have nodup : (front ++ i :: back).Nodup := split ▸ wf
  rw [List.nodup_middle, List.nodup_cons, List.mem_append, not_or] at nodup
  obtain ⟨⟨notFront, notBack⟩, -⟩ := nodup
  cases back with
  | nil => exact absurd (by rw [split, List.getLast?_concat]) notLast
  | cons j back => exact ⟨front, j, back, split, notFront, notBack⟩

/-- No index stands at two places of a permutation. -/
theorem OrderWf.get_injective (wf : OrderWf order) : Function.Injective fun k : Fin n => order[k] := by
  intro j k same
  exact Fin.ext ((List.Nodup.getElem_inj_iff wf (hi := by simp) (hj := by simp)).mp (by simpa using same))

/-- LOOKUP's answer is that of the search (rule R130). -/
theorem tlbLookup_fst (page : PageNo) (s : State) : (tlbLookup page s).1 = findSlot page s := by
  rw [tlbLookup]
  cases findSlot page s <;> rfl

/-- LOOKUP finds a page in a slot that no other slot shares it with (rules R130, R139). -/
theorem findSlot_eq_of_only {page : PageNo} {s : State} {k : SlotNo} (holds : s.tlb[k].page = some page)
    (only : ∀ j : SlotNo, j ≠ k → s.tlb[j].page ≠ some page) : findSlot page s = some k :=
  findSlot_eq_some.mpr ⟨holds, fun j before => only j before.ne⟩

/-- After a TRANSLATE the slot that served the page holds it with its frame, and every other slot is as it was (rule
R165). -/
theorem Served.complete_tlb_get {page : PageNo} {s u : State} {k : SlotNo} {frame : FrameNo}
    (h : Served page s k frame u) (o : Offset) (j : SlotNo) :
    (complete k frame o u).tlb[j] = if j = k then ⟨some page, frame⟩ else s.tlb[j] := by
  rw [complete_tlb, h.tlb_get]

end Sys2Proof.Machine
end

section
/-! SUPPORT. The arena of rule R118: what it means that it holds an order, that this determines it, and that SEED and
PROMOTE see to it. -/

namespace Sys2Proof.Machine

variable {n : Nat} {before a b : Arena n} {order : Order n} {x y : Fin (n + 1)} {i : Fin n}

/-! ### Reads after writes -/

theorem arenaSetNext_next (x v : Fin (n + 1)) : (arenaSetNext x v a).next[y] = if y = x then v else a.next[y] :=
  vector_set_get ..

@[simp] theorem arenaSetNext_prev (x v : Fin (n + 1)) : (arenaSetNext x v a).prev = a.prev := rfl

theorem arenaSetPrev_prev (x : Fin (n + 1)) (v : Option (Fin (n + 1))) :
    (arenaSetPrev x v a).prev[y] = if y = x then v else a.prev[y] :=
  vector_set_get ..

@[simp] theorem arenaSetPrev_next (x : Fin (n + 1)) (v : Option (Fin (n + 1))) :
    (arenaSetPrev x v a).next = a.next := rfl

@[simp] theorem arenaNode_inj {i j : Fin n} : arenaNode i = arenaNode j ↔ i = j := Fin.castSucc_inj

@[simp] theorem arenaNode_ne_sentinel (i : Fin n) : arenaNode i ≠ arenaSentinel n := Fin.castSucc_ne_last i

@[simp] theorem sentinel_ne_arenaNode (i : Fin n) : arenaSentinel n ≠ arenaNode i := (arenaNode_ne_sentinel i).symm

/-! ### Holding an order -/

/-- The sentinel and then the nodes of an order, least recently used first. -/
def arenaNodes (order : Order n) : List (Fin (n + 1)) := arenaSentinel n :: order.toList.map arenaNode

@[simp] theorem arenaNodes_length (order : Order n) : (arenaNodes order).length = n + 1 := by simp [arenaNodes]

/-- The node at a place behind the sentinel. -/
theorem arenaNodes_getElem?_succ (order : Order n) (k : Nat) :
    (arenaNodes order)[k + 1]? = if h : k < n then some (arenaNode order[k]) else none := by
  split <;> simp [arenaNodes, *]

theorem arenaNodes_getElem_succ (order : Order n) {k : Nat} (hk : k < n) :
    (arenaNodes order)[k + 1]'(by simpa using hk) = arenaNode order[k] := by
  simp [arenaNodes]

/-- Every node has its place. -/
theorem OrderWf.exists_place (wf : OrderWf order) (x : Fin (n + 1)) :
    ∃ k, ∃ hk : k < (arenaNodes order).length, (arenaNodes order)[k] = x := by
  refine List.getElem_of_mem ?_
  cases x using Fin.lastCases with
  | last => exact List.mem_cons_self
  | cast i => exact List.mem_cons_of_mem _ (List.mem_map_of_mem (wf.mem i))

/-- `y` is the next more recently used node after `x`: both arrays say so. -/
def ArenaLink (a : Arena n) (x y : Fin (n + 1)) : Prop := a.prev[x] = some y ∧ a.next[y] = x

/-- The arena holds the order: its nodes are linked from the sentinel on, and the most recently used one is the head.
`next[S]` is what it was before SEED (rule R118). -/
structure ArenaHolds (before : Arena n) (order : Order n) (a : Arena n) : Prop where
  links : (arenaNodes order).IsChain (ArenaLink a)
  head : order.toList.getLast? = some a.head
  newest : a.prev[arenaNode a.head] = none
  untouched : a.next[arenaSentinel n] = before.next[arenaSentinel n]

namespace ArenaHolds

theorem nodes_getLast? (h : ArenaHolds before order a) : (arenaNodes order).getLast? = some (arenaNode a.head) := by
  simp [arenaNodes, List.getLast?_cons, h.head]

/-- The links place by place. -/
theorem link (h : ArenaHolds before order a) {k : Nat} (hk : k + 1 < (arenaNodes order).length) :
    ArenaLink a (arenaNodes order)[k] (arenaNodes order)[k + 1] :=
  List.isChain_iff_getElem.mp h.links k hk

theorem head_unique (ha : ArenaHolds before order a) (hb : ArenaHolds before order b) : a.head = b.head :=
  Option.some.inj (ha.head.symm.trans hb.head)

theorem next_unique (wf : OrderWf order) (ha : ArenaHolds before order a) (hb : ArenaHolds before order b)
    (x : Fin (n + 1)) : a.next[x] = b.next[x] := by
  obtain ⟨_ | k, hk, rfl⟩ := wf.exists_place x
  · exact ha.untouched.trans hb.untouched.symm
  · exact (ha.link hk).2.trans (hb.link hk).2.symm

theorem prev_unique (wf : OrderWf order) (ha : ArenaHolds before order a) (hb : ArenaHolds before order b)
    (x : Fin (n + 1)) : a.prev[x] = b.prev[x] := by
  obtain ⟨k, hk, rfl⟩ := wf.exists_place x
  by_cases more : k + 1 < (arenaNodes order).length
  · exact (ha.link more).1.trans (hb.link more).1.symm
  · have last := ha.nodes_getLast?
    rw [List.getLast?_eq_getElem?, show (arenaNodes order).length - 1 = k by omega, List.getElem?_eq_getElem hk] at last
    rw [Option.some.inj last, ha.newest, ha.head_unique hb, hb.newest]

/-- The order and the old `next[S]` determine the arena. -/
theorem unique (wf : OrderWf order) (ha : ArenaHolds before order a) (hb : ArenaHolds before order b) : a = b := by
  have next : a.next = b.next := Vector.ext fun k hk => ha.next_unique wf hb ⟨k, hk⟩
  have prev : a.prev = b.prev := Vector.ext fun k hk => ha.prev_unique wf hb ⟨k, hk⟩
  have head := ha.head_unique hb
  cases a
  cases b
  simp_all only

end ArenaHolds

/-! ### Reading the order -/

/-- Following `next` along linked nodes down to the sentinel visits just these (rule R118). -/
theorem arenaWalk_of_chain {nodes : List (Fin (n + 1))}
    (linked : (nodes ++ [arenaSentinel n]).IsChain fun y x => a.next[y] = x) (inner : arenaSentinel n ∉ nodes)
    {fuel : Nat} (enough : nodes.length < fuel) (first : (nodes ++ [arenaSentinel n]).head? = some x) :
    arenaWalk a fuel x = nodes := by
  induction nodes generalizing fuel x with
  | nil =>
    obtain rfl : arenaSentinel n = x := Option.some.inj first
    cases fuel with
    | zero => cases enough
    | succ fuel => rw [arenaWalk, if_pos rfl]
  | cons y later ih =>
    obtain rfl : y = x := Option.some.inj first
    obtain ⟨other, innerLater⟩ := not_or.mp (List.mem_cons.not.mp inner)
    obtain ⟨step, linkedLater⟩ := List.isChain_cons.mp linked
    cases fuel with
    | zero => cases enough
    | succ fuel =>
      rw [arenaWalk, if_neg (Ne.symm other)]
      have first' : (later ++ [arenaSentinel n]).head? = some a.next[y] := by
        obtain ⟨z, hz⟩ : ∃ z, (later ++ [arenaSentinel n]).head? = some z := by cases later <;> exact ⟨_, rfl⟩
        rw [hz, step z hz]
      rw [ih linkedLater innerLater (Nat.lt_of_succ_lt_succ enough) first']

namespace ArenaHolds

/-- The abstraction of an arena that holds an order is the order (rule R118). -/
theorem arenaOrder_eq (h : ArenaHolds before order a) : arenaOrder a = order.toList.map arenaNode := by
  have reversed : (arenaNodes order).reverse = (order.toList.map arenaNode).reverse ++ [arenaSentinel n] :=
    List.reverse_cons
  have linked : (arenaNodes order).reverse.IsChain fun y x => a.next[y] = x :=
    List.isChain_reverse.mpr (h.links.imp fun _ _ link => link.2)
  have first : (arenaNodes order).reverse.head? = some (arenaNode a.head) := by
    rw [List.head?_reverse, h.nodes_getLast?]
  rw [reversed] at linked first
  rw [arenaOrder, arenaWalk_of_chain linked (by simp) (by simp) first, List.reverse_reverse]

/-- PEEK_LEAST of an arena that holds an order is the order's head (rules R113, R118). -/
theorem arenaPeekLeast_eq [NeZero n] (h : ArenaHolds before order a) :
    arenaPeekLeast a = some (arenaNode (peekLeast order)) := by
  obtain ⟨rest, cons⟩ := List.head?_eq_some_iff.mp (toList_head order)
  have linked := h.links
  rw [arenaNodes, cons, List.map_cons, List.isChain_cons_cons] at linked
  exact linked.1.1

end ArenaHolds

/-! ### PROMOTE -/

section
variable {older newer : Fin (n + 1)} (apart : i ≠ a.head) (below : ArenaLink a older (arenaNode i))
  (above : ArenaLink a (arenaNode i) newer)
include apart below above

/-- What PROMOTE of a node that is not the head writes: the node is taken out from between its neighbours and put behind
the head (rule R118). -/
theorem arenaPromote_eq : arenaPromote i a =
    { arenaSetPrev (arenaNode i) none
        (arenaSetPrev (arenaNode a.head) (some (arenaNode i))
          (arenaSetNext (arenaNode i) (arenaNode a.head)
            (arenaSetPrev older (some newer) (arenaSetNext newer older a)))) with head := i } := by
  unfold arenaPromote
  rw [if_neg apart]
  split
  next none => exact nomatch none.symm.trans above.1
  next p some =>
    obtain rfl := Option.some.inj (some.symm.trans above.1)
    rw [below.2]

theorem arenaPromote_head : (arenaPromote i a).head = i := by rw [arenaPromote_eq apart below above]

theorem arenaPromote_next (y : Fin (n + 1)) : (arenaPromote i a).next[y] =
    if y = arenaNode i then arenaNode a.head else if y = newer then older else a.next[y] := by
  rw [arenaPromote_eq apart below above]
  simp only [arenaSetPrev_next, arenaSetNext_next]

theorem arenaPromote_prev (x : Fin (n + 1)) : (arenaPromote i a).prev[x] =
    if x = arenaNode i then none else if x = arenaNode a.head then some (arenaNode i)
      else if x = older then some newer else a.prev[x] := by
  rw [arenaPromote_eq apart below above]
  simp only [arenaSetNext_prev, arenaSetPrev_prev]

/-- PROMOTE keeps the links between other nodes. -/
theorem arenaPromote_keeps_link (newest : a.prev[arenaNode a.head] = none) (hx : x ≠ arenaNode i)
    (hy : y ≠ arenaNode i) (link : ArenaLink a x y) : ArenaLink (arenaPromote i a) x y := by
  obtain ⟨prev, next⟩ := link
  have notHead : x ≠ arenaNode a.head := by
    rintro rfl
    exact nomatch newest.symm.trans prev
  have notOlder : x ≠ older := by
    rintro rfl
    exact hy (Option.some.inj (prev.symm.trans below.1))
  have notNewer : y ≠ newer := by
    rintro rfl
    exact hx (next.symm.trans above.2)
  constructor
  · rw [arenaPromote_prev apart below above, if_neg hx, if_neg notHead, if_neg notOlder, prev]
  · rw [arenaPromote_next apart below above, if_neg hy, if_neg notNewer, next]

/-- PROMOTE links the two neighbours of the node it takes out. -/
theorem arenaPromote_closes_gap (newest : a.prev[arenaNode a.head] = none) (holder : older ≠ arenaNode i)
    (hnewer : newer ≠ arenaNode i) : ArenaLink (arenaPromote i a) older newer := by
  have notHead : older ≠ arenaNode a.head := by
    rintro rfl
    exact nomatch newest.symm.trans below.1
  constructor
  · rw [arenaPromote_prev apart below above, if_neg holder, if_neg notHead, if_pos rfl]
  · rw [arenaPromote_next apart below above, if_neg hnewer, if_pos rfl]

/-- PROMOTE links the node behind the old head. -/
theorem arenaPromote_links_head : ArenaLink (arenaPromote i a) (arenaNode a.head) (arenaNode i) := by
  constructor
  · rw [arenaPromote_prev apart below above, if_neg (arenaNode_inj.not.mpr (Ne.symm apart)), if_pos rfl]
  · rw [arenaPromote_next apart below above, if_pos rfl]

end

/-- PROMOTE moves a node from its place to the end of the linked nodes (rules R112, R118). -/
theorem arenaPromote_moves {up rest : List (Fin (n + 1))} {older newer : Fin (n + 1)} (apart : i ≠ a.head)
    (newest : a.prev[arenaNode a.head] = none)
    (links : (up ++ older :: arenaNode i :: newer :: rest).IsChain (ArenaLink a))
    (last : (newer :: rest).getLast? = some (arenaNode a.head)) (notUp : arenaNode i ∉ up ++ [older])
    (notRest : arenaNode i ∉ newer :: rest) :
    (up ++ older :: newer :: (rest ++ [arenaNode i])).IsChain (ArenaLink (arenaPromote i a)) := by
  rw [List.isChain_append_cons_cons, List.isChain_cons_cons] at links
  obtain ⟨upLinks, below, above, restLinks⟩ := links
  have kept {l : List (Fin (n + 1))} (other : arenaNode i ∉ l) (chain : l.IsChain (ArenaLink a)) :
      l.IsChain (ArenaLink (arenaPromote i a)) :=
    chain.imp_of_mem_imp fun x y hx hy => arenaPromote_keeps_link apart below above newest
      (ne_of_mem_of_not_mem hx other) (ne_of_mem_of_not_mem hy other)
  have gap : ArenaLink (arenaPromote i a) older newer := arenaPromote_closes_gap apart below above newest
    (ne_of_mem_of_not_mem (List.mem_append_right _ List.mem_cons_self) notUp)
    (ne_of_mem_of_not_mem List.mem_cons_self notRest)
  have top : (newer :: rest ++ [arenaNode i]).IsChain (ArenaLink (arenaPromote i a)) := by
    refine (kept notRest restLinks).append (List.isChain_singleton _) fun x hx y hy => ?_
    obtain rfl := Option.some.inj (last.symm.trans hx)
    obtain rfl := Option.some.inj hy
    exact arenaPromote_links_head apart below above
  exact List.isChain_append_cons_cons.mpr ⟨kept notUp upLinks, gap, top⟩

/-- PROMOTE of the head changes nothing (rules R112, R118). -/
theorem arenaPromote_of_head (head : i = a.head) : arenaPromote i a = a := if_pos head

/-- PROMOTE of an arena that holds an order leads to one that holds the promoted order (rules R112, R118). -/
theorem ArenaHolds.promote (wf : OrderWf order) (h : ArenaHolds before order a) (i : Fin n) :
    ArenaHolds before (promote order i) (arenaPromote i a) := by
  by_cases head : i = a.head
  · rwa [arenaPromote_of_head head, promote_of_getLast? (head ▸ h.head)]
  obtain ⟨front, j, back, split, notFront, notBack⟩ :=
    wf.split_at fun last => head (Option.some.inj (last.symm.trans h.head))
  have promoted : (Machine.promote order i).toList = front ++ j :: (back ++ [i]) := by
    rw [promote_toList wf, split, List.erase_append_right _ notFront, List.erase_cons_head, List.append_assoc,
      List.cons_append]
  obtain ⟨up, older, below⟩ : ∃ up older, arenaSentinel n :: front.map arenaNode = up ++ [older] :=
    ⟨_, _, (List.dropLast_concat_getLast (List.cons_ne_nil _ _)).symm⟩
  have nodes (later : List (Fin n)) : arenaSentinel n :: (front ++ later).map arenaNode =
      up ++ older :: later.map arenaNode := by
    rw [List.map_append, ← List.cons_append, below, List.append_assoc, List.singleton_append]
  have links := h.links
  have last := h.nodes_getLast?
  rw [arenaNodes, split, nodes] at links last
  obtain ⟨-, belowLink, laterLinks⟩ := List.isChain_append_cons_cons.mp links
  have aboveLink := (List.isChain_cons_cons.mp laterLinks).1
  constructor
  case links =>
    rw [arenaNodes, promoted, nodes, List.map_cons, List.map_append]
    refine arenaPromote_moves head h.newest links ?_ ?_ ?_
    · simpa [List.getLast?_cons] using last
    · rw [← below]
      simpa using notFront
    · simpa using notBack
  case head => rw [promote_getLast? wf, arenaPromote_head head belowLink aboveLink]
  case newest =>
    exact (arenaPromote_prev head belowLink aboveLink _).trans
      (if_pos (congrArg arenaNode (arenaPromote_head head belowLink aboveLink)))
  case untouched =>
    rw [arenaPromote_next head belowLink aboveLink, if_neg (sentinel_ne_arenaNode i), if_neg (sentinel_ne_arenaNode j),
      h.untouched]

/-! ### SEED -/

/-- A round of SEED's loop links the node at its place to the nodes before and after it (rule R118). -/
theorem arenaSeedRound_eq (seed : Order n) (a : Arena n) (k : Fin n) : arenaSeedRound seed a k =
    arenaSetPrev (arenaNode seed[k]) (arenaNodes seed)[k.val + 2]?
      (arenaSetNext (arenaNode seed[k]) ((arenaNodes seed)[k.val]'(by rw [arenaNodes_length]; omega)) a) := by
  obtain ⟨k, hk⟩ := k
  rw [arenaNodes_getElem?_succ]
  cases k <;> simp [arenaSeedRound, arenaNodes]

/-- The node at place `k` of the seed stands linked to the nodes before and after it. -/
structure SeedPlaced (seed : Order n) (k : Fin n) (a : Arena n) : Prop where
  next : a.next[arenaNode seed[k]] = (arenaNodes seed)[k.val]'(by rw [arenaNodes_length]; omega)
  prev : a.prev[arenaNode seed[k]] = (arenaNodes seed)[k.val + 2]?

/-- A round places its own node. -/
theorem arenaSeedRound_places (seed : Order n) (a : Arena n) (k : Fin n) :
    SeedPlaced seed k (arenaSeedRound seed a k) := by
  rw [arenaSeedRound_eq]
  exact ⟨(arenaSetNext_next ..).trans (if_pos rfl), (arenaSetPrev_prev ..).trans (if_pos rfl)⟩

/-- A round moves no node placed by an earlier one. -/
theorem SeedPlaced.after_round {seed : Order n} {k : Fin n} (wf : OrderWf seed) (placed : SeedPlaced seed k a)
    (j : Fin n) : SeedPlaced seed k (arenaSeedRound seed a j) := by
  by_cases same : k = j
  · exact same ▸ arenaSeedRound_places seed a k
  have apart : arenaNode seed[k] ≠ arenaNode seed[j] := fun h => same (wf.get_injective (arenaNode_inj.mp h))
  rw [arenaSeedRound_eq]
  exact ⟨((arenaSetNext_next ..).trans (if_neg apart)).trans placed.next,
    ((arenaSetPrev_prev ..).trans (if_neg apart)).trans placed.prev⟩

/-- The rounds place all their nodes. -/
theorem foldl_arenaSeedRound_places {seed : Order n} (wf : OrderWf seed) (rounds : List (Fin n)) (a : Arena n)
    {k : Fin n} (h : k ∈ rounds ∨ SeedPlaced seed k a) :
    SeedPlaced seed k (rounds.foldl (arenaSeedRound seed) a) := by
  induction rounds generalizing a with
  | nil => exact h.resolve_left List.not_mem_nil
  | cons j later ih =>
    refine ih _ ?_
    obtain mem | placed := h
    · obtain rfl | mem := List.mem_cons.mp mem
      · exact .inr (arenaSeedRound_places seed a k)
      · exact .inl mem
    · exact .inr (placed.after_round wf j)

/-- The rounds write neither the head nor `next[S]`. -/
theorem foldl_arenaSeedRound_keeps (seed : Order n) (rounds : List (Fin n)) (a : Arena n) :
    (rounds.foldl (arenaSeedRound seed) a).head = a.head ∧
      (rounds.foldl (arenaSeedRound seed) a).next[arenaSentinel n] = a.next[arenaSentinel n] := by
  induction rounds generalizing a with
  | nil => exact ⟨rfl, rfl⟩
  | cons j later ih =>
    obtain ⟨head, next⟩ := ih (arenaSeedRound seed a j)
    rw [List.foldl_cons, head, next, arenaSeedRound_eq]
    exact ⟨rfl, (arenaSetNext_next ..).trans (if_neg (sentinel_ne_arenaNode _))⟩

section
variable [NeZero n] (seed : Order n) (before : Arena n)

theorem arenaSeed_head : (arenaSeed seed before).head = seed[n - 1]'(Nat.sub_one_lt (NeZero.ne n)) :=
  (foldl_arenaSeedRound_keeps seed _ _).1

theorem arenaSeed_next_sentinel : (arenaSeed seed before).next[arenaSentinel n] = before.next[arenaSentinel n] :=
  (foldl_arenaSeedRound_keeps seed _ _).2

theorem arenaSeed_prev_sentinel :
    (arenaSeed seed before).prev[arenaSentinel n] = some (arenaNode (peekLeast seed)) :=
  (arenaSetPrev_prev ..).trans (if_pos rfl)

theorem arenaSeed_places {seed : Order n} (wf : OrderWf seed) (k : Fin n) :
    SeedPlaced seed k (arenaSeed seed before) := by
  obtain ⟨next, prev⟩ := foldl_arenaSeedRound_places wf (List.finRange n)
    { before with head := seed[n - 1]'(Nat.sub_one_lt (NeZero.ne n)) } (.inl (List.mem_finRange k))
  exact ⟨next, ((arenaSetPrev_prev ..).trans (if_neg (arenaNode_ne_sentinel _))).trans prev⟩

/-- SEED with a permutation makes the arena hold it (rule R118). -/
theorem arenaSeed_holds {seed : Order n} (wf : OrderWf seed) : ArenaHolds before seed (arenaSeed seed before) := by
  have pos : 0 < n := Nat.pos_of_neZero n
  constructor
  case head =>
    rw [arenaSeed_head, List.getLast?_eq_getElem?]
    simp [pos]
  case newest =>
    have last := (arenaSeed_places before wf ⟨n - 1, Nat.sub_one_lt (NeZero.ne n)⟩).prev
    rw [arenaNodes_getElem?_succ, dif_neg (show ¬ n - 1 + 1 < n by omega)] at last
    simp only [arenaSeed_head]
    exact last
  case untouched => exact arenaSeed_next_sentinel seed before
  case links =>
    rw [List.isChain_iff_getElem]
    intro k hk
    have hk : k < n := by simpa using hk
    have here := arenaNodes_getElem_succ seed hk
    constructor
    · cases k with
      | zero =>
        simp only [here]
        exact arenaSeed_prev_sentinel seed before
      | succ k =>
        simp only [arenaNodes_getElem_succ seed (Nat.lt_of_succ_lt hk)]
        exact (arenaSeed_places before wf ⟨k, Nat.lt_of_succ_lt hk⟩).prev.trans (List.getElem?_eq_getElem _)
    · simp only [here]
      exact (arenaSeed_places before wf ⟨k, hk⟩).next

end

end Sys2Proof.Machine
end

section
/-! SUPPORT. Two blocks that differ only in their seeds (rule R119): what they share, the relabelling of their TLB slots,
and that every step keeps them alike. -/

namespace Sys2Proof.Machine

variable {s t u v : State} {page : PageNo} {k : SlotNo} {frame : FrameNo} {n : Nat}

/-! ### Relabelling an order -/

/-- Two permutations differ by a relabelling: the index at each place of the one goes to the index there in the other. -/
theorem exists_relabelling {seed seed' : Order n} (h : OrderWf seed) (h' : OrderWf seed') :
    ∃ relabel : Equiv.Perm (Fin n), ∀ k : Fin n, relabel seed[k] = seed'[k] := by
  have places := Finite.injective_iff_bijective.mp h.get_injective
  have places' := Finite.injective_iff_bijective.mp h'.get_injective
  refine ⟨(Equiv.ofBijective _ places).symm.trans (Equiv.ofBijective _ places'), fun k => ?_⟩
  exact congrArg (fun k : Fin n => seed'[k]) (Equiv.ofBijective_symm_apply_apply _ places k)

/-- The relabelling commutes with PROMOTE (rule R112). -/
theorem promote_map {order : Order n} (h : OrderWf order) (relabel : Equiv.Perm (Fin n)) (i : Fin n) :
    promote (order.map relabel) (relabel i) = (promote order i).map relabel := by
  have h' : OrderWf (order.map relabel) := by
    rw [OrderWf, Vector.toList_map]
    exact h.map relabel.injective
  apply Vector.toList_inj.mp
  rw [promote_toList h', Vector.toList_map, Vector.toList_map, promote_toList h, List.map_append,
    List.map_erase relabel.injective, List.map_singleton]

/-- The relabelling commutes with PEEK_LEAST (rule R113). -/
theorem peekLeast_map [NeZero n] (order : Order n) (relabel : Equiv.Perm (Fin n)) :
    peekLeast (order.map relabel) = relabel (peekLeast order) := by
  simp [peekLeast]

/-! ### What the blocks share -/

/-- The state without what the seeds decide: the TLB, the recency orders and the seeds themselves. -/
def shared (s : State) : State :=
  { s with
    tlb := emptyTlb 0
    rlT := ascendingOrder tlbSlots
    rlF := ascendingOrder numFrames
    tlbSeed := ascendingOrder tlbSlots
    frameSeed := ascendingOrder numFrames }

/-- Two blocks agree in whatever depends on the shared part of the state only. -/
theorem shared_congr {α : Type} (f : State → α) (reads : ∀ s, f s = f (shared s)) (same : shared t = shared s) :
    f t = f s := by
  rw [reads t, reads s, same]

section
variable (same : shared t = shared s)
include same

theorem pt_eq_of_shared : t.pt = s.pt := shared_congr State.pt (fun _ => rfl) same
theorem resident_eq_of_shared : t.resident = s.resident := shared_congr State.resident (fun _ => rfl) same
theorem fill_eq_of_shared : t.fill = s.fill := shared_congr State.fill (fun _ => rfl) same
theorem stat_eq_of_shared : t.stat = s.stat := shared_congr State.stat (fun _ => rfl) same
theorem fault_eq_of_shared : t.fault = s.fault := shared_congr State.fault (fun _ => rfl) same
theorem inbox_eq_of_shared : t.inbox = s.inbox := shared_congr State.inbox (fun _ => rfl) same
theorem response_eq_of_shared : t.response = s.response := shared_congr State.response (fun _ => rfl) same

theorem bsAnswer_eq_of_shared (off : Nat) : bsAnswer off t = bsAnswer off s :=
  shared_congr (bsAnswer off) (fun _ => rfl) same

/-- The choice of a target leaves the blocks alike if it falls on one frame (rule R151). -/
theorem shared_takeTarget (target : fillTarget t = fillTarget s) : shared (takeTarget t) = shared (takeTarget s) := by
  have fill := fill_eq_of_shared same
  have resident := resident_eq_of_shared same
  by_cases fresh : s.fill.val < numFrames
  · have raised (c : Fin (numFrames + 1)) : shared { t with fill := c } = shared { s with fill := c } :=
      shared_congr (fun s => shared { s with fill := c }) (fun _ => rfl) same
    rw [(takeTarget_fresh fresh).2, (takeTarget_fresh (fill ▸ fresh)).2, ← raised]
    simp only [fill]
  · rw [(takeTarget_evict fresh).2, (takeTarget_evict (fill ▸ fresh)).2]
    simp only [target, resident]
    cases s.resident[fillTarget s] with
    | none => exact same
    | some old => exact shared_congr (fun s => shared (invalidate old s)) (fun _ => rfl) same

theorem shared_afterTarget (target : fillTarget t = fillTarget s) :
    shared (afterTarget t) = shared (afterTarget s) := by
  have counted : shared (countPageFault t) = shared (countPageFault s) :=
    shared_congr (fun s => shared (countPageFault s)) (fun _ => rfl) same
  exact shared_congr (fun s => shared (countRead s)) (fun _ => rfl) (shared_takeTarget counted target)

end

/-- Two attempts with one outcome: done with a result and its relabelling, or ended by one error, or waiting, in states
that are alike. -/
inductive SameAttempt {α : Type} (relabel : α → α) : Attempt α → Attempt α → Prop where
  | done {a b : α} {x y : State} (result : b = relabel a) (same : shared y = shared x) :
      SameAttempt relabel (.done a x) (.done b y)
  | raised {e : Resp} {x y : State} (same : shared y = shared x) : SameAttempt relabel (.raised e x) (.raised e y)
  | stuck : SameAttempt relabel .stuck .stuck

/-- ENSURE_RESIDENT comes to the same in both blocks if their targets are one frame (rules R119, R150). -/
theorem ensureResident_same (same : shared t = shared s) (target : fillTarget t = fillTarget s) :
    SameAttempt id (ensureResident page s) (ensureResident page t) := by
  have after := shared_afterTarget same target
  have reads : t.reads = s.reads := shared_congr State.reads (fun _ => rfl) same
  simp only [ensureResident, frameOf, pt_eq_of_shared same, bsAnswer_eq_of_shared same, target, reads]
  cases s.pt[page] with
  | some frame => exact .done rfl same
  | none =>
    cases bsAnswer (pageBase page) s with
    | noAnswer => exact .stuck
    | ioerror =>
      exact .raised (shared_congr (fun s' => shared (abandonFill page (fillTarget s) s.reads s')) (fun _ => rfl) after)
    | ok bytes =>
      exact .done rfl (shared_congr (fun s' => shared (fillAndMap page (fillTarget s) bytes s')) (fun _ => rfl) after)

theorem ensureResident_keeps_rlT (h : ensureResident page s = .done frame u) : u.rlT = s.rlT := by
  obtain ⟨-, rfl⟩ | ⟨-, -, -, rfl⟩ := ensureResident_done h
  · rfl
  · exact filled_rlT s

@[simp] theorem fillFailed_tlb (s : State) : (fillFailed page s).tlb = s.tlb := by simp [fillFailed, abandonFill]

theorem Served.tlbSeed_eq (h : Served page s k frame u) : u.tlbSeed = s.tlbSeed := by cases h <;> simp

/-- The frames handed out after a TRANSLATE stand in their old order but for the one that served it, which is last (rules
R112, R117, R151). -/
theorem Served.filled_frames_complete (served : Served page s k frame u) (healthy : Healthy s) (frames : OrderWf s.rlF)
    (o : Offset) :
    (complete k frame o u).rlF.toList.filter (fun f => decide (f.val < (complete k frame o u).fill.val)) =
      (s.rlF.toList.filter fun f => decide (f.val < s.fill.val)).filter (· != frame) ++ [frame] := by
  rw [complete_rlF, served.rlF_eq, complete_fill]
  refine promote_filter_with frames fun f => ?_
  rw [Bool.eq_iff_iff]
  simp only [Bool.or_eq_true, decide_eq_true_eq, beq_iff_eq, served.lt_fill healthy]

/-! ### Twin blocks -/

/-- Two blocks alike but for their seeds: the one's TLB is the other's with its slots relabelled, and while FAULT is
clear the frames handed out stand in one recency order (rule R119). Both meet the invariant. -/
structure Twin (relabel : Equiv.Perm SlotNo) (s t : State) : Prop where
  same : shared t = shared s
  slot_order : t.rlT = s.rlT.map relabel
  slot_seed : t.tlbSeed = s.tlbSeed.map relabel
  pages : ∀ k : SlotNo, t.tlb[relabel k].page = s.tlb[k].page
  frames : ∀ k : SlotNo, s.tlb[k].page.isSome → t.tlb[relabel k].frame = s.tlb[k].frame
  filled_frames : s.fault = none → t.rlF.toList.filter (fun f => decide (f.val < t.fill.val)) =
    s.rlF.toList.filter fun f => decide (f.val < s.fill.val)
  inv : Inv s
  inv' : Inv t

namespace Twin

variable {relabel : Equiv.Perm SlotNo} (twin : Twin relabel s t)
include twin

theorem clear' (clear : s.fault = none) : t.fault = none := (fault_eq_of_shared twin.same).trans clear

/-- Writing the host's fields alike leaves twins. -/
theorem of_host_fields {inbox inbox' : List HostInput} {response response' : Option Resp} {sent sent' : List Reply}
    (same : shared { t with inbox := inbox', response := response', sent := sent' } =
      shared { s with inbox := inbox, response := response, sent := sent }) :
    Twin relabel { s with inbox := inbox, response := response, sent := sent }
      { t with inbox := inbox', response := response', sent := sent' } :=
  { twin with same, inv := twin.inv.of_host_fields .., inv' := twin.inv'.of_host_fields .. }

theorem after_input (inbox : List HostInput) : Twin relabel { s with inbox := inbox } { t with inbox := inbox } :=
  twin.of_host_fields (shared_congr (fun s => shared { s with inbox := inbox }) (fun _ => rfl) twin.same)

theorem after_respond (r : Resp) : Twin relabel (respond r s) (respond r t) :=
  twin.of_host_fields (shared_congr (fun s => shared (respond r s)) (fun _ => rfl) twin.same)

theorem after_post (r : Reply) : Twin relabel (post r s) (post r t) :=
  twin.of_host_fields (shared_congr (fun s => shared (post r s)) (fun _ => rfl) twin.same)

/-- The search finds a page in the slot of the same label (rules R130, R139). -/
theorem findSlot_eq (clear : s.fault = none) : findSlot page t = (findSlot page s).map relabel := by
  cases found : findSlot page s with
  | none =>
    refine findSlot_eq_none.mpr fun j => ?_
    rw [← relabel.apply_symm_apply j, twin.pages]
    exact findSlot_eq_none.mp found _
  | some k =>
    have holds : t.tlb[relabel k].page = some page := (twin.pages k).trans (findSlot_eq_some.mp found).1
    refine findSlot_eq_of_only holds fun j other also => other ?_
    exact (twin.inv'.healthy (twin.clear' clear)).slots_hold_distinct_pages j (relabel k) (Option.isSome_of_mem also)
      (also.trans holds.symm)

/-- The target of a fill is one frame in both blocks: a fresh frame is chosen by the fill count, and once none is left
the recency orders of the handed-out frames are the whole orders (rules R119, R151). -/
theorem fillTarget_eq (clear : s.fault = none) : fillTarget t = fillTarget s := by
  have fill := fill_eq_of_shared twin.same
  by_cases fresh : s.fill.val < numFrames
  · have next := (takeTarget_fresh fresh).1
    have next' := (takeTarget_fresh (fill ▸ fresh)).1
    exact Fin.ext (by rw [next, next', fill])
  · have handedOut (l : List FrameNo) : l.filter (fun f => decide (f.val < s.fill.val)) = l :=
      List.filter_eq_self.mpr fun f _ => decide_eq_true (Nat.lt_of_lt_of_le f.isLt (Nat.le_of_not_lt fresh))
    have order := twin.filled_frames clear
    rw [fill, handedOut, handedOut] at order
    rw [(takeTarget_evict fresh).1, (takeTarget_evict (fill ▸ fresh)).1, Vector.toList_inj.mp order]

/-- Step 2 of TRANSLATE comes to the same in both blocks, in slots of the same label (rules R119, R165). -/
theorem resolve_same (clear : s.fault = none) :
    SameAttempt (Prod.map relabel id) (resolve page s) (resolve page t) := by
  simp only [resolve, tlbLookup, twin.findSlot_eq clear]
  cases found : findSlot page s with
  | some k =>
    have live : s.tlb[k].page.isSome := Option.isSome_of_mem (findSlot_eq_some.mp found).1
    exact .done (Prod.ext rfl (twin.frames k live))
      (shared_congr (fun s => shared (countTlbHit s)) (fun _ => rfl) twin.same)
  | none =>
    have resident := ensureResident_same (page := page) twin.same (twin.fillTarget_eq clear)
    generalize hs : ensureResident page s = a at resident
    generalize ht : ensureResident page t = b at resident
    cases resident with
    | stuck => simp only [Option.map_none, hs, ht]; exact .stuck
    | raised same => simp only [Option.map_none, hs, ht]; exact .raised same
    | @done frame _ u v result same =>
      obtain rfl := result
      have victim : evictCandidate v = relabel (evictCandidate u) := by
        rw [evictCandidate, evictCandidate, ensureResident_keeps_rlT ht, ensureResident_keeps_rlT hs, twin.slot_order,
          peekLeast_map]
      simp only [Option.map_none, hs, ht]
      exact .done (Prod.ext victim rfl) same

/-! ### Commands -/

/-- A TRANSLATE that completes in both blocks leaves them twins (rules R119, R165). -/
theorem after_complete (clear : s.fault = none) (served : Served page s k frame u)
    (served' : Served page t (relabel k) frame v) (same : shared v = shared u) (o : Offset) :
    Twin relabel (complete k frame o u) (complete (relabel k) frame o v) := by
  have slot' (j : SlotNo) : (complete (relabel k) frame o v).tlb[relabel j] =
      if j = k then ⟨some page, frame⟩ else t.tlb[relabel j] := by
    rw [served'.complete_tlb_get]
    simp only [relabel.apply_eq_iff_eq]
  have clear' := twin.clear' clear
  constructor
  case same =>
    exact shared_congr (fun s => shared (complete k frame o s)) (fun _ => rfl) same
  case slot_order =>
    rw [complete_rlT, complete_rlT, served.rlT_eq, served'.rlT_eq, twin.slot_order, promote_map twin.inv.tlb_order]
  case slot_seed =>
    rw [complete_tlbSeed, complete_tlbSeed, served.tlbSeed_eq, served'.tlbSeed_eq, twin.slot_seed]
  case pages =>
    intro j
    rw [served.complete_tlb_get, slot']
    split
    · rfl
    · exact twin.pages j
  case frames =>
    intro j
    rw [served.complete_tlb_get, slot']
    split
    · exact fun _ => rfl
    · exact twin.frames j
  case filled_frames =>
    intro _
    have gains := served.filled_frames_complete (twin.inv.healthy clear) twin.inv.frame_order o
    have gains' := served'.filled_frames_complete (twin.inv'.healthy clear') twin.inv'.frame_order o
    rw [gains, gains', twin.filled_frames clear]
  case inv => exact twin.inv.after_complete clear served o
  case inv' => exact twin.inv'.after_complete clear' served' o

/-- A TRANSLATE whose fill fails in both blocks leaves them twins (rule R153, log 5). -/
theorem after_fillFailed (clear : s.fault = none) (same : shared (fillFailed page t) = shared (fillFailed page s)) :
    Twin relabel (fillFailed page s) (fillFailed page t) where
  same := same
  slot_order := by rw [fillFailed_rlT, fillFailed_rlT, twin.slot_order]
  slot_seed := by rw [fillFailed_tlbSeed, fillFailed_tlbSeed, twin.slot_seed]
  pages := by rw [fillFailed_tlb, fillFailed_tlb]; exact twin.pages
  frames := by rw [fillFailed_tlb, fillFailed_tlb]; exact twin.frames
  filled_frames := by simp
  inv := twin.inv.after_fillFailed clear
  inv' := twin.inv'.after_fillFailed (twin.clear' clear)

end Twin

/-- The outcomes of twin blocks: both go on as twins, or both stop for one reason. -/
inductive SameOutcome (relabel : Equiv.Perm SlotNo) : Outcome → Outcome → Prop where
  | next {x y : State} (twin : Twin relabel x y) : SameOutcome relabel (.next x) (.next y)
  | fault (e : Fault) : SameOutcome relabel (.fault e) (.fault e)
  | refused (e : Refusal) : SameOutcome relabel (.refused e) (.refused e)

/-- TRANSLATE_MALFORMED answers by FAULT (rules R167, R170). -/
theorem exec_translateMalformed (s : State) : exec .translateMalformed s =
    .next (respond ((faultPage s).elim .errMalformedRecord .errFaulted) s) := by
  rw [exec, execTranslateMalformed]
  cases faultPage s <;> rfl

/-- A command that is no TRANSLATE in range with FAULT clear answers with a response that the shared part of the state
decides (rules R166, R167, R168, R170). -/
theorem exec_respond_or_in_range (i : Instr) (s : State) :
    (∃ r, ∀ t, shared t = shared s → exec i t = .next (respond r t)) ∨
      ∃ (p : PageNo) (o : Offset) (w : Bool), i = .translate (p.val * 256 + o.val) w ∧ s.fault = none := by
  cases i with
  | report =>
    refine .inl ⟨.reported s.stat.translated s.stat.pageFaults s.stat.tlbHits (s.fault.map FaultRecord.page)
      (ratesOf s.stat.translated s.stat.pageFaults s.stat.tlbHits), fun t same => ?_⟩
    rw [exec_report, faultPage, stat_eq_of_shared same, fault_eq_of_shared same]
  | translateMalformed =>
    refine .inl ⟨(s.fault.map FaultRecord.page).elim .errMalformedRecord .errFaulted, fun t same => ?_⟩
    rw [exec_translateMalformed, faultPage, fault_eq_of_shared same]
  | translate addr w =>
    cases fault : s.fault with
    | some e =>
      exact .inl ⟨_, fun t same => exec_translate_of_fault ((fault_eq_of_shared same).trans fault) addr w⟩
    | none =>
      obtain inside | outside := Nat.lt_or_ge addr vspace
      · exact .inr ⟨_, _, w, congrArg (Instr.translate · w) (address_split addr inside), rfl⟩
      · exact .inl ⟨_, fun t same => exec_translate_out_of_range ((fault_eq_of_shared same).trans fault) outside w⟩

namespace Twin

variable {relabel : Equiv.Perm SlotNo} (twin : Twin relabel s t)
include twin

/-- A command has one outcome in twin blocks (rule R119). -/
theorem exec_same (i : Instr) : SameOutcome relabel (exec i s) (exec i t) := by
  obtain ⟨r, answers⟩ | ⟨p, o, w, rfl, clear⟩ := exec_respond_or_in_range i s
  · rw [answers s rfl, answers t twin.same]
    exact .next (twin.after_respond r)
  · rw [exec_translate_address p o w clear, exec_translate_address p o w (twin.clear' clear)]
    have resolved := twin.resolve_same (page := p) clear
    generalize hs : resolve p s = a at resolved
    generalize ht : resolve p t = b at resolved
    cases resolved with
    | stuck => exact .fault _
    | done result same =>
      obtain rfl := result
      exact .next (twin.after_complete clear (resolve_served hs) (resolve_served ht) same o)
    | raised same =>
      obtain ⟨-, -, -, rfl⟩ := ensureResident_raised (resolve_raised hs).2
      obtain ⟨-, -, -, rfl⟩ := ensureResident_raised (resolve_raised ht).2
      exact .next ((twin.after_fillFailed clear same).after_respond _)

/-- A reset leaves twins: the orders are the seeds again and every slot is EMPTY (rule R215). -/
theorem after_reset : Twin relabel (applyReset s) (applyReset t) where
  same := shared_congr (fun s => shared (applyReset s)) (fun _ => rfl) twin.same
  slot_order := twin.slot_seed
  slot_seed := twin.slot_seed
  pages k := (emptyTlb_page _ _).trans (emptyTlb_page _ k).symm
  frames k live := nomatch (emptyTlb_page _ k) ▸ live
  filled_frames _ := by simp
  inv := (applyReset_atReset s).inv twin.inv.tlb_seed twin.inv.frame_seed
  inv' := (applyReset_atReset t).inv twin.inv'.tlb_seed twin.inv'.frame_seed

/-- A store is attached to both blocks or to neither (rules R64, R219). -/
theorem attach_same (store : BackingStore) : SameOutcome relabel (attachStore store s) (attachStore store t) := by
  have fill := fill_eq_of_shared twin.same
  by_cases unfilled : s.fill = 0
  · rw [attachStore, attachStore, if_pos unfilled, if_pos (fill.trans unfilled)]
    exact .next { twin with
      same := shared_congr (fun s => shared { s with bs := store }) (fun _ => rfl) twin.same
      inv := twin.inv.after_attach store unfilled
      inv' := twin.inv'.after_attach store (fill.trans unfilled) }
  · rw [attachStore, attachStore, if_neg unfilled, if_neg (fill ▸ unfilled)]
    exact .refused _

end Twin

/-! ### Replies and steps -/

variable {relabel : Equiv.Perm SlotNo} {a b : Outcome}

theorem SameOutcome.replyWords (h : SameOutcome relabel a b) : SameOutcome relabel (replyWords a) (replyWords b) := by
  cases h with
  | fault e => exact .fault e
  | refused e => exact .refused e
  | @next x y twin =>
    simp only [Machine.replyWords, response_eq_of_shared twin.same]
    cases x.response with
    | none => exact .next twin
    | some r =>
      simp only
      cases r.pack with
      | none => exact .refused _
      | some ws => exact .next (twin.after_post _)

theorem SameOutcome.replyAbstract (h : SameOutcome relabel a b) :
    SameOutcome relabel (replyAbstract a) (replyAbstract b) := by
  cases h with
  | fault e => exact .fault e
  | refused e => exact .refused e
  | @next x y twin =>
    simp only [Machine.replyAbstract, response_eq_of_shared twin.same]
    cases x.response with
    | none => exact .next twin
    | some r => exact .next (twin.after_post _)

section
variable {M : Host.Core} {s t : M.State}

theorem run_of_step_next (steps : Nat) (h : M.step s = .next t) : M.run (steps + 1) s = M.run steps t := by
  rw [Host.Core.run, h]

theorem run_of_step_fault (steps : Nat) {e : M.Fault} (h : M.step s = .fault e) : M.run (steps + 1) s = .fault e := by
  rw [Host.Core.run, h]

theorem run_of_step_refused (steps : Nat) {e : M.Refusal} (h : M.step s = .refused e) :
    M.run (steps + 1) s = .refused e := by
  rw [Host.Core.run, h]

end

namespace Twin

/-- An input has one outcome in twin blocks (rule R119). -/
theorem perform_same (twin : Twin relabel s t) (input : HostInput) :
    SameOutcome relabel (perform input s) (perform input t) := by
  cases input with
  | reset => exact .next twin.after_reset
  | attach store => exact twin.attach_same store
  | command i => exact (twin.exec_same i).replyAbstract
  | word w =>
    rw [perform_word, perform_word]
    cases decode w with
    | command i => exact (twin.exec_same i).replyWords
    | illegal v => exact (SameOutcome.next (twin.after_respond .errIllegalCommand)).replyWords

/-- A step has one outcome in twin blocks (rule R119). -/
theorem step_same (twin : Twin relabel s t) : SameOutcome relabel (step s) (step t) := by
  have inbox := inbox_eq_of_shared twin.same
  cases input : s.inbox with
  | nil =>
    simp only [step, inbox, input]
    exact .next twin
  | cons next rest =>
    rw [step_of_inbox_cons input, step_of_inbox_cons (inbox.trans input)]
    exact (twin.after_input rest).perform_same next

/-- A run has one outcome in twin blocks (rule R119). -/
theorem run_same (steps : Nat) (twin : Twin relabel s t) :
    SameOutcome relabel (core.run steps s) (core.run steps t) := by
  induction steps generalizing s t with
  | zero => exact .next twin
  | succ steps ih =>
    have stepped := twin.step_same
    generalize hs : step s = a at stepped
    generalize ht : step t = b at stepped
    cases stepped with
    | next twin =>
      rw [run_of_step_next (M := core) steps hs, run_of_step_next (M := core) steps ht]
      exact ih twin
    | fault e =>
      rw [run_of_step_fault (M := core) steps hs, run_of_step_fault (M := core) steps ht]
      exact .fault e
    | refused e =>
      rw [run_of_step_refused (M := core) steps hs, run_of_step_refused (M := core) steps ht]
      exact .refused e

end Twin

/-! ### Blocks right after reset -/

/-- A block right after reset holds the reset values (rule R215). -/
theorem coldBlock_atReset (seedT : Order tlbSlots) (seedF : Order numFrames) (store : BackingStore) (draws : List Draw)
    (inputs : List HostInput) : AtReset (coldBlock seedT seedF store draws inputs) := by
  obtain ⟨slots, -, pages, frames, fill, -, stat, clear, mem⟩ := reset_atReset
  exact ⟨slots, rfl, pages, frames, fill, rfl, stat, clear, mem⟩

/-- Blocks right after reset that differ only in their seeds are twins. -/
theorem coldBlock_twin {seedT seedT' : Order tlbSlots} {seedF seedF' : Order numFrames} (store : BackingStore)
    (draws : List Draw) (inputs : List HostInput) (hT : OrderWf seedT) (hT' : OrderWf seedT') (hF : OrderWf seedF)
    (hF' : OrderWf seedF') (seeds : ∀ k : SlotNo, relabel seedT[k] = seedT'[k]) :
    Twin relabel (coldBlock seedT seedF store draws inputs) (coldBlock seedT' seedF' store draws inputs) := by
  have order : seedT' = seedT.map relabel := by
    apply Vector.ext
    intro k hk
    rw [Vector.getElem_map]
    exact (seeds ⟨k, hk⟩).symm
  have cold := coldBlock_atReset seedT seedF store draws inputs
  have cold' := coldBlock_atReset seedT' seedF' store draws inputs
  constructor
  case same => rfl
  case slot_order => exact order
  case slot_seed => exact order
  case pages => exact fun k => (cold'.slots_empty _).trans (cold.slots_empty k).symm
  case frames => exact fun k live => nomatch cold.slots_empty k ▸ live
  case filled_frames => simp [cold.nothing_filled, cold'.nothing_filled]
  case inv => exact cold.inv hT hF
  case inv' => exact cold'.inv hT' hF'

end Sys2Proof.Machine
end

section
/-! The statements of 40_recency_list.md. -/

namespace Sys2Proof.Machine

/-- Settles O15: the seeded arena holds the order, PROMOTE leads to an arena that holds the promoted order, and there is
only one such arena. -/
theorem arenaImplementsTheRecencyList : Obligations.ArenaImplementsTheRecencyList := by
  intro n _ before order i wf
  have holds := arenaSeed_holds before wf
  exact ⟨holds.arenaOrder_eq, holds.arenaPeekLeast_eq,
    (holds.promote wf i).unique (promote_wf wf i) (arenaSeed_holds before (promote_wf wf i))⟩

/-- Settles O57: the two blocks begin as twins, and twins agree in all that the statement names. -/
theorem responsesDoNotDependOnTheSeeds : Obligations.ResponsesDoNotDependOnTheSeeds := by
  intro seedT seedT' seedF seedF' store draws inputs n hT hT' hF hF'
  obtain ⟨relabel, seeds⟩ := exists_relabelling hT hT'
  have outcome := (coldBlock_twin store draws inputs hT hT' hF hF' seeds).run_same n
  generalize core.run n (coldBlock seedT seedF store draws inputs) = a at outcome
  generalize core.run n (coldBlock seedT' seedF' store draws inputs) = b at outcome
  cases outcome with
  | fault e => rfl
  | refused e => rfl
  | @next s t twin =>
    obtain ⟨same, -, -, pages, frames, -, -, -⟩ := twin
    refine ⟨shared_congr State.sent (fun _ => rfl) same, response_eq_of_shared same, pt_eq_of_shared same,
      shared_congr State.mem (fun _ => rfl) same, resident_eq_of_shared same, fill_eq_of_shared same,
      stat_eq_of_shared same, fault_eq_of_shared same, fun k => ?_⟩
    simp only [← seeds]
    exact ⟨pages seedT[k], frames seedT[k]⟩

/-- Settles O13: the order after the promotions, counted up to the index; at position 0 there is none to count. -/
theorem lruLaw : Obligations.LruLaw := by
  intro n _ order x since h notSince
  have position := (idxOf_foldl_promote h notSince).trans (h.length_filter _)
  refine ⟨position, fun least y other => ?_⟩
  have head := idxOf_peekLeast (since.foldl promote (promote order x))
  rw [least, position, List.length_eq_zero_iff, List.filter_eq_nil_iff] at head
  simpa [other] using head y (List.mem_finRange y)

/-- Settles O14, by induction on the promotions. -/
theorem orderAfterPromotions : Obligations.OrderAfterPromotions :=
  fun _ _ promoted h => foldl_promote_toList promoted h

/-- Settles O55: the slot that served the page holds it, alone, and was promoted last. -/
theorem aTranslatedPageIsTheMostRecentSlot : Obligations.ATranslatedPageIsTheMostRecentSlot := by
  intro s t p o isWrite pa v inv h response
  cases exec_answered h with
  | plain r untranslated => exact absurd (Option.some.inj response) (untranslated pa v)
  | failed => cases response
  | @translated q o' w k frame u command clear served =>
    obtain rfl := page_of_translate_eq command
    rw [complete_response] at response
    cases response
    have here := (served.complete_tlb_get o' k).trans (if_pos rfl)
    refine ⟨k, ?_, ?_, ?_⟩
    · rw [tlbLookup_fst]
      refine findSlot_eq_of_only (congrArg TlbSlot.page here) fun j other => ?_
      rw [served.complete_tlb_get, if_neg other]
      exact served.others_miss (inv.healthy clear) other
    · rw [frameAt, here]
      have ho : o'.val < 256 := o'.isLt
      change frame.val = (frame.val * 256 + o'.val) / 256
      omega
    · rw [complete_rlT, served.rlT_eq, promote_getLast? inv.tlb_order]

end Sys2Proof.Machine
end

section
/-! The statements of 41_address_decomposer.md. -/

namespace Sys2Proof.Machine

/-- COMPOSE as a number (rule R126). -/
theorem composeVirtual_val (p : PageNo) (o : Offset) : (composeVirtual p o).val = p.val * 256 + o.val := rfl

/-- DECOMPOSE finds the page and the offset that COMPOSE put together (rule R127). -/
theorem decompose_composeVirtual (p : PageNo) (o : Offset) : decompose (composeVirtual p o) = (p, o) :=
  Prod.ext (pageOf_address p o) (offsetOf_address p o)

/-- COMPOSE puts together the address that DECOMPOSE took apart (rule R127). -/
theorem composeVirtual_decompose (va : VAddr) : composeVirtual (decompose va).1 (decompose va).2 = va :=
  Fin.ext (address_split va.val va.isLt).symm

/-- Settles O12: the two round trips, and COMPOSE as a number. -/
theorem composeAndDecomposeRoundTrip : Obligations.ComposeAndDecomposeRoundTrip :=
  ⟨composeVirtual_decompose, decompose_composeVirtual, composeVirtual_val⟩

end Sys2Proof.Machine
end

section
/-! SUPPORT. What a command changes of the paging and of the TLB: nothing, or what one page fault and one install do
(rules R130, R132, R134, R150-R153). -/

namespace Sys2Proof.Machine

variable {s t u : State} {page : PageNo} {k : SlotNo} {frame : FrameNo} {i : Instr}

/-! ### Paging -/

@[simp] theorem fillFailed_pt (s : State) : (fillFailed page s).pt = (afterTarget s).pt := by
  simp [fillFailed, abandonFill]
@[simp] theorem fillFailed_resident (s : State) : (fillFailed page s).resident = s.resident := by
  simp [fillFailed, abandonFill]
@[simp] theorem fillFailed_resets (s : State) : (fillFailed page s).resets = s.resets := by
  simp [fillFailed, abandonFill]

/-- A fill that fails leaves unspecified bytes in the target frame only (rule R153). -/
theorem memRead_fillFailed_outside (s : State) {pa : Nat}
    (outside : ¬ (frameBase (fillTarget s) ≤ pa ∧ pa < frameBase (fillTarget s) + pageSize)) :
    memRead (fillFailed page s) pa = memRead s pa := by
  rw [memRead, fillFailed_mem, Memory.read_write, failedFillBytes_length, if_neg outside, fillFailed_resets, memRead]

/-- A page-table entry after a target has been chosen: as it was, or invalid because the least recently used frame held
its page when every frame had been handed out (rules R145, R151). -/
theorem afterTarget_pt_get (s : State) (q : PageNo) :
    (afterTarget s).pt[q] = s.pt[q] ∨
      (afterTarget s).pt[q] = none ∧ s.fill.val = numFrames ∧ s.resident[peekLeast s.rlF] = some q := by
  rw [afterTarget_pt_eq]
  by_cases fresh : s.fill.val < numFrames
  · exact .inl (by rw [if_pos fresh])
  · have target := (takeTarget_evict fresh).1
    cases victim : s.resident[peekLeast s.rlF] with
    | none => exact .inl (by simp only [if_neg fresh, target, victim])
    | some old =>
      have full : s.fill.val = numFrames := Nat.le_antisymm (Nat.le_of_lt_succ s.fill.isLt) (Nat.le_of_not_lt fresh)
      simp only [if_neg fresh, target, victim, vector_set_get]
      by_cases same : q = old
      · exact .inr ⟨if_pos same, full, congrArg some same.symm⟩
      · exact .inl (if_neg same)

/-- Two states agree in all that a page fault may change, and in the reset count, on which the bytes never written
depend. -/
structure SamePaging (s t : State) : Prop where
  pt : t.pt = s.pt
  mem : t.mem = s.mem
  resident : t.resident = s.resident
  fill : t.fill = s.fill
  reads : t.reads = s.reads
  resets : t.resets = s.resets
  pageFaults : t.stat.pageFaults = s.stat.pageFaults

theorem SamePaging.memRead_eq (h : SamePaging s t) (pa : Nat) : memRead t pa = memRead s pa := by
  rw [memRead, memRead, h.mem, h.resets]

/-- Steps 3 to 7 of TRANSLATE do no paging (rule R165). -/
theorem SamePaging.after_complete (h : SamePaging s u) (o : Offset) : SamePaging s (complete k frame o u) :=
  ⟨h.pt, h.mem, h.resident, h.fill, h.reads, h.resets, h.pageFaults⟩

/-- Step 2 of TRANSLATE does no paging but by a fill that succeeded (rules R130, R132, R152). -/
theorem Served.paging (h : Served page s k frame u) :
    SamePaging s u ∨
      (∀ j : SlotNo, s.tlb[j].page ≠ some page) ∧ s.pt[page] = none ∧ SamePaging (filled page s) u := by
  cases h with
  | hit => exact .inl ⟨rfl, rfl, rfl, rfl, rfl, rfl, rfl⟩
  | walk => exact .inl ⟨rfl, rfl, rfl, rfl, rfl, rfl, rfl⟩
  | fill missed invalid => exact .inr ⟨missed, invalid, rfl, rfl, rfl, rfl, rfl, rfl, rfl⟩

/-- A command does no paging, or it is a TRANSLATE that page faults: FAULT is clear, no slot holds its page, the page is
invalid, and the fill has succeeded or failed (rules R150-R153). -/
theorem exec_paging (h : exec i s = .next t) :
    SamePaging s t ∨
      ∃ (p : PageNo) (o : Offset) (w : Bool), i = .translate (p.val * 256 + o.val) w ∧ s.fault = none ∧
        (∀ j : SlotNo, s.tlb[j].page ≠ some p) ∧ s.pt[p] = none ∧
        (SamePaging (filled p s) t ∨ SamePaging (fillFailed p s) t) := by
  cases exec_answered h with
  | plain => exact .inl ⟨rfl, rfl, rfl, rfl, rfl, rfl, rfl⟩
  | @translated p o w _ _ _ command clear served =>
    obtain same | ⟨missed, invalid, same⟩ := served.paging
    · exact .inl (same.after_complete o)
    · exact .inr ⟨p, o, w, command, clear, missed, invalid, .inl (same.after_complete o)⟩
  | @failed p o w command clear missed invalid =>
    exact .inr ⟨p, o, w, command, clear, missed, invalid, .inr ⟨rfl, rfl, rfl, rfl, rfl, rfl, rfl⟩⟩

/-- A command writes no entry of `FT.resident` but the target frame's (rules R150, R152). -/
theorem exec_resident_get (h : exec i s = .next t) {f : FrameNo} (other : f ≠ fillTarget s) :
    t.resident[f] = s.resident[f] := by
  obtain same | ⟨p, -, -, -, -, -, -, same | same⟩ := exec_paging h
  · rw [same.resident]
  · rw [same.resident, filled_resident]
    exact (vector_set_get ..).trans (if_neg other)
  · rw [same.resident, fillFailed_resident]

/-- A command writes no byte outside the target frame (rules R68, R150, R153). -/
theorem exec_memRead_outside (h : exec i s = .next t) {pa : Nat}
    (outside : ¬ (frameBase (fillTarget s) ≤ pa ∧ pa < frameBase (fillTarget s) + pageSize)) :
    memRead t pa = memRead s pa := by
  obtain same | ⟨p, -, -, -, -, -, -, same | same⟩ := exec_paging h
  · exact same.memRead_eq pa
  · exact (same.memRead_eq pa).trans (memRead_filled_outside s outside)
  · exact (same.memRead_eq pa).trans (memRead_fillFailed_outside s outside)

/-- A command performs no reset. -/
theorem exec_keeps_resets (h : exec i s = .next t) : t.resets = s.resets := by
  obtain same | ⟨p, -, -, -, -, -, -, same | same⟩ := exec_paging h
  · exact same.resets
  · rw [same.resets, filled_resets]
  · rw [same.resets, fillFailed_resets]

/-- A page fault, whether or not its fill succeeds, counts once and keeps a valid page's entry but for the choice of the
target (rules R150-R153). -/
theorem page_fault_keeps_valid {p : PageNo} (invalid : s.pt[page] = none) (valid : s.pt[p] = some frame)
    (same : SamePaging (filled page s) t ∨ SamePaging (fillFailed page s) t) :
    t.pt[p] = (afterTarget s).pt[p] ∧ t.stat.pageFaults = s.stat.pageFaults + 1 := by
  obtain same | same := same
  · have apart : p ≠ page := by
      rintro rfl
      exact nomatch invalid.symm.trans valid
    rw [same.pt, same.pageFaults, filled_pt, filled_stat]
    exact ⟨(vector_set_get ..).trans (if_neg apart), rfl⟩
  · rw [same.pt, same.pageFaults, fillFailed_pt, fillFailed_stat]
    exact ⟨rfl, rfl⟩

/-! ### The TLB -/

/-- The slot that serves a page held it with its frame before, or is the least recently used one, and no slot held the
page (rules R130, R133). -/
theorem Served.held_or_installed (h : Served page s k frame u) :
    s.tlb[k] = ⟨some page, frame⟩ ∨ k = peekLeast s.rlT ∧ ∀ j : SlotNo, s.tlb[j].page ≠ some page := by
  cases h with
  | hit holds => exact .inl (by rw [← holds])
  | walk missed => exact .inr ⟨rfl, missed⟩
  | fill missed => exact .inr ⟨rfl, missed⟩

/-- A command leaves a slot as it is, or it is the least recently used one, and now holds the page of a TRANSLATE that
no slot held (rules R132, R134, R136). -/
theorem exec_tlb_get (h : exec i s = .next t) (k : SlotNo) :
    t.tlb[k] = s.tlb[k] ∨
      k = peekLeast s.rlT ∧ ∃ (p : PageNo) (o : Offset) (w : Bool), i = .translate (p.val * 256 + o.val) w ∧
        (∀ j : SlotNo, s.tlb[j].page ≠ some p) ∧ t.tlb[k].page = some p := by
  cases exec_answered h with
  | plain => exact .inl rfl
  | failed => exact .inl (by rw [respond_tlb, fillFailed_tlb])
  | @translated p o w serving frame u command _ served =>
    rw [served.complete_tlb_get]
    by_cases other : k = serving
    · subst other
      rw [if_pos rfl]
      obtain held | ⟨least, missed⟩ := served.held_or_installed
      · exact .inl held.symm
      · exact .inr ⟨least, p, o, w, command, missed, rfl⟩
    · exact .inl (if_neg other)

/-- A command writes no slot but the least recently used one (rule R134). -/
theorem exec_keeps_other_slots (h : exec i s = .next t) (other : k ≠ peekLeast s.rlT) : t.tlb[k] = s.tlb[k] :=
  (exec_tlb_get h k).resolve_right fun ⟨least, _⟩ => other least

/-- LOOKUP of a page that a slot holds counts the hit (rule R130). -/
theorem tlbLookup_of_findSlot_eq_some (found : findSlot page s = some k) :
    tlbLookup page s = (some k, countTlbHit s) := by
  rw [tlbLookup, found]

/-- LOOKUP of a page that no slot holds changes nothing (rule R130). -/
theorem tlbLookup_of_findSlot_eq_none (missed : findSlot page s = none) : tlbLookup page s = (none, s) := by
  rw [tlbLookup, missed]

end Sys2Proof.Machine
end

section
/-! The statements of 42_tlb.md. -/

namespace Sys2Proof.Machine

/-- Settles O16: LOOKUP answers what the search finds, which is the lowest slot that holds the page. -/
theorem lookupFindsTheLowestMatchingSlot : Obligations.LookupFindsTheLowestMatchingSlot := by
  intro page s
  refine ⟨fun k holds lowest => tlbLookup_of_findSlot_eq_some (findSlot_eq_some.mpr ⟨holds, lowest⟩),
    fun missed => tlbLookup_of_findSlot_eq_none (findSlot_eq_none.mpr missed), fun k t hit => ?_⟩
  have found : findSlot page s = some k := (tlbLookup_fst page s).symm.trans (congrArg Prod.fst hit)
  exact findSlot_eq_some.mp found

/-- Settles O32: a TRANSLATE writes one slot, and one frame only by a page fault. -/
theorem translateFrame : Obligations.TranslateFrame := by
  intro s t addr isWrite h
  obtain ⟨tlbSeed, frameSeed, draws, bs⟩ := exec_keeps_parameters h
  obtain ⟨inbox, sent⟩ := exec_keeps_queues h
  refine ⟨fun _ => exec_keeps_other_slots h, fun _ => exec_resident_get h, fun _ => exec_memRead_outside h,
    fun noFault => ?_, tlbSeed, frameSeed, bs, draws, exec_keeps_resets h, inbox, sent⟩
  obtain same | ⟨p, o, w, command, clear, missed, invalid, -⟩ := exec_paging h
  · exact ⟨same.mem, same.pt, same.resident, same.fill, same.reads⟩
  · injection command with address
    have ho : o.val < 256 := o.isLt
    exact absurd ⟨clear, p, by omega, missed, invalid⟩ noFault

/-- Settles O38: only a page fault writes the page table, and what it makes invalid is the victim's page. -/
theorem onlyAnEvictionInvalidatesAPage : Obligations.OnlyAnEvictionInvalidatesAPage := by
  intro i s t p f h valid
  obtain same | ⟨page, -, -, -, -, -, invalid, same⟩ := exec_paging h
  · exact .inl (by rw [same.pt, valid])
  · obtain ⟨entry, counted⟩ := page_fault_keeps_valid invalid valid same
    obtain kept | ⟨gone, full, victim⟩ := afterTarget_pt_get s p
    · exact .inl (entry.trans (kept.trans valid))
    · exact .inr ⟨entry.trans gone, full, victim, counted, fun _ => exec_keeps_other_slots h⟩

/-- Settles O39: a slot is as it was or has just been installed. -/
theorem tlbMappingsPersistUntilOverwritten : Obligations.TlbMappingsPersistUntilOverwritten :=
  fun _ _ _ k h changed => (exec_tlb_get h k).resolve_left changed

/-- Settles O56: every frame is filled, so the victim holds a valid page; the victim, being the target of the next fill,
serves no slot, and a slot that held its page would be served by it. -/
theorem evictionVictimsAreInNoTlbSlot : Obligations.EvictionVictimsAreInNoTlbSlot := by
  intro s inv clear full
  have healthy := inv.healthy clear
  have target : fillTarget s = peekLeast s.rlF := (takeTarget_evict (by rw [full]; exact Nat.lt_irrefl _)).1
  have below : (peekLeast s.rlF).val < s.fill.val := full ▸ (peekLeast s.rlF).isLt
  obtain ⟨old, resident⟩ := Option.isSome_iff_exists.mp ((healthy.resident_iff_filled _).mpr below)
  have valid : s.pt[old] = some (peekLeast s.rlF) := (healthy.valid_iff_resident _ _).mpr ⟨below, resident⟩
  have unserved {k : SlotNo} {p : PageNo} (holds : s.tlb[k].page = some p) : s.tlb[k].frame ≠ peekLeast s.rlF :=
    target ▸ fillTarget_in_no_slot inv.tlb_order inv.frame_order healthy holds
  refine ⟨old, resident, valid, fun k => ⟨fun holds => unserved holds ?_, fun live => ?_⟩⟩
  · exact Option.some.inj ((healthy.tlb_agrees_with_page_table k old holds).symm.trans valid)
  · obtain ⟨p, holds⟩ := Option.isSome_iff_exists.mp live
    exact unserved holds

end Sys2Proof.Machine
end

section
/-! The statements of 43_page_table.md. -/

namespace Sys2Proof.Machine

/-- Settles O17: each operation sets the page's own place of the page table, and updates no other field. -/
theorem pageTableOperationsWriteOneEntry : Obligations.PageTableOperationsWriteOneEntry := by
  intro p f s
  refine ⟨fun q => ?marked, fun q => ?invalidated, rfl, rfl⟩
  case marked => rw [markResident_pt, vector_set_get]
  case invalidated => rw [invalidate_pt, vector_set_get]

end Sys2Proof.Machine
end

section
/-! SUPPORT. The frame table: what ENSURE_RESIDENT does where its outcome is known, a failed fill as a whole next state,
and the byte that the read port gives (rules R150, R151, R153, R155). -/

namespace Sys2Proof.Machine

variable {s : State} {page : PageNo} {frame : FrameNo}

/-! ### ENSURE_RESIDENT -/

/-- A valid page is served at once (rule R150 step 1). -/
theorem ensureResident_of_valid (valid : s.pt[page] = some frame) : ensureResident page s = .done frame s := by
  simp only [ensureResident, frameOf, valid]

/-- An invalid page whose read fails ends the command (rule R153). -/
theorem ensureResident_of_read_failed (invalid : s.pt[page] = none) (failed : bsAnswer (pageBase page) s = .ioerror) :
    ensureResident page s = .raised (.errBackingStoreIO page) (fillFailed page s) := by
  simp only [ensureResident, frameOf, invalid, failed]
  rfl

/-- Step 2 of TRANSLATE passes on the error of the fill that a TLB miss needed (rules R153, R165). -/
theorem resolve_of_read_failed (missed : ∀ j : SlotNo, s.tlb[j].page ≠ some page) (invalid : s.pt[page] = none)
    (failed : bsAnswer (pageBase page) s = .ioerror) :
    resolve page s = .raised (.errBackingStoreIO page) (fillFailed page s) := by
  rw [resolve, tlbLookup_of_findSlot_eq_none (findSlot_eq_none.mpr missed)]
  simp only [ensureResident_of_read_failed invalid failed]

/-! ### The state after a failed fill -/

/-- The target of a fill by the fill count (rule R151). -/
theorem fillTarget_eq_of_fill
    (target : s.fill.val < numFrames ∧ frame.val = s.fill.val ∨ s.fill.val = numFrames ∧ frame = peekLeast s.rlF) :
    fillTarget s = frame := by
  obtain ⟨fresh, next⟩ | ⟨full, least⟩ := target
  · exact Fin.ext ((takeTarget_fresh fresh).1.trans next.symm)
  · exact (takeTarget_evict full.not_lt).1.trans least.symm

/-- Choosing a target writes the page table and the fill count only (rules R150, R151). -/
theorem takeTarget_eq (s : State) :
    takeTarget s = { s with pt := (takeTarget s).pt, fill := (takeTarget s).fill } := by
  by_cases fresh : s.fill.val < numFrames
  · rw [(takeTarget_fresh fresh).2]
  · rw [(takeTarget_evict fresh).2]
    cases s.resident[fillTarget s] <;> rfl

/-- A page fault up to its read writes the page table and the fill count, and counts the fault and the read (rule
R150). -/
theorem afterTarget_eq (s : State) : afterTarget s =
    { s with
      pt := (afterTarget s).pt
      fill := (afterTarget s).fill
      stat := { s.stat with pageFaults := s.stat.pageFaults + 1 }
      reads := s.reads + 1 } :=
  congrArg countRead (takeTarget_eq (countPageFault s))

/-- A failed fill writes moreover the target frame and FAULT (rule R153). -/
theorem fillFailed_eq (page : PageNo) (s : State) : fillFailed page s =
    { s with
      pt := (afterTarget s).pt
      mem := (fillFailed page s).mem
      fill := (fillFailed page s).fill
      stat := { s.stat with pageFaults := s.stat.pageFaults + 1 }
      fault := some ⟨.backingStoreIOError, page⟩
      reads := s.reads + 1 } := by
  rw [fillFailed_mem]
  exact congrArg (abandonFill page (fillTarget s) s.reads) (afterTarget_eq s)

/-! ### The read port -/

/-- The signed value of a byte fits in eight bits (rule R10). -/
theorem sext8_bounds (b : Byte) : -128 ≤ sext8 b ∧ sext8 b ≤ 127 := by
  have hb : b.toNat < 256 := b.isLt
  rw [sext8]
  split <;> omega

/-- READ_BYTE of a byte that a fill has written (rule R155). -/
theorem readByte_of_written {o : Offset} {b : Byte} (written : s.mem.read (frame.val * 256 + o.val) = some b) :
    readByte frame o s = sext8 b := by
  have read : s.mem.read (composePhysical frame o) = some b := written
  rw [readByte, memRead, read, Option.getD_some]

end Sys2Proof.Machine
end

section
/-! The statements of 44_frame_table.md. -/

namespace Sys2Proof.Machine

/-- Settles O25: step 2 of TRANSLATE ends with the error of the fill, whose target is the frame named. -/
theorem translateWhoseFillFails : Obligations.TranslateWhoseFillFails := by
  intro s p o isWrite f clear missed invalid failed target
  obtain rfl := fillTarget_eq_of_fill target
  refine ⟨respond (.errBackingStoreIO p) (fillFailed p s), ?answer, ?fill, fun pa outside => ?memory, ?state⟩
  case answer =>
    rw [exec_translate_address p o isWrite clear, resolve_of_read_failed missed invalid (bsAnswer_ioerror.mpr failed)]
    rfl
  case fill =>
    rw [respond_fill, fillFailed_fill]
    exact afterTarget_fill s
  case memory => exact memRead_fillFailed_outside (page := p) s outside
  case state =>
    have whole := fillFailed_eq p s
    rw [afterTarget_pt_eq] at whole
    exact congrArg (respond _) whole

/-- Settles O18: READ_BYTE of a written byte is `sext8` of it, which is the two's complement value. -/
theorem readByteIsTheSignedPattern : Obligations.ReadByteIsTheSignedPattern := by
  intro f o s b written
  rw [readByte_of_written written]
  exact ⟨rfl, sext8_bounds b⟩

/-- Settles O19: step 1 of ENSURE_RESIDENT finds the frame. -/
theorem residentPagesAreServedWithoutAFault : Obligations.ResidentPagesAreServedWithoutAFault :=
  fun _ _ _ valid => ensureResident_of_valid valid

end Sys2Proof.Machine
end

section
/-! SUPPORT. The translation engine: what step 2 of TRANSLATE comes to where its way is known, the state after a page fault
that was served, and the answers of a command by FAULT (rules R130-R133, R150-R153, R165, R167, R170, R172). -/

namespace Sys2Proof.Machine

variable {s u : State} {page : PageNo} {k : SlotNo} {frame : FrameNo}

/-! ### Step 2 of TRANSLATE -/

/-- Step 2 on a TLB hit (rules R130, R131). -/
theorem resolve_of_hit (found : findSlot page s = some k) :
    resolve page s = .done (k, s.tlb[k].frame) (countTlbHit s) := by
  rw [resolve, tlbLookup_of_findSlot_eq_some found]
  rfl

/-- Step 2 on a TLB miss is ENSURE_RESIDENT and an install in the least recently used slot (rules R132, R133). -/
theorem resolve_of_miss (missed : ∀ j : SlotNo, s.tlb[j].page ≠ some page)
    (resident : ensureResident page s = .done frame u) :
    resolve page s = .done (peekLeast s.rlT, frame) (install (peekLeast s.rlT) page frame u) := by
  rw [← ensureResident_keeps_rlT resident, resolve, tlbLookup_of_findSlot_eq_none (findSlot_eq_none.mpr missed)]
  simp only [resident]
  rfl

/-- An invalid page whose read succeeds is filled into the target frame and mapped (rule R152). -/
theorem ensureResident_of_read_succeeded (invalid : s.pt[page] = none) (succeeds : ReadSucceeds page s) :
    ensureResident page s = .done (fillTarget s) (filled page s) := by
  obtain ⟨answers, inside⟩ := succeeds
  have answer : bsAnswer (pageBase page) s = .ok (s.bs.pageAt (pageBase page)) :=
    bsAnswer_ok.mpr ⟨inside, answers, rfl⟩
  simp only [ensureResident, frameOf, invalid, answer]
  rfl

/-- Once step 2 is done, a TRANSLATE completes (rule R165 steps 3 to 7). -/
theorem exec_translate_of_resolved {p : PageNo} (o : Offset) (w : Bool) (clear : s.fault = none)
    (resolved : resolve p s = .done (k, frame) u) :
    exec (.translate (p.val * 256 + o.val) w) s = .next (complete k frame o u) := by
  rw [exec_translate_address p o w clear, resolved]

/-- What steps 3 to 7 of TRANSLATE write (rule R165). -/
theorem complete_eq (k : SlotNo) (frame : FrameNo) (o : Offset) (u : State) : complete k frame o u =
    { u with
      rlT := promote u.rlT k
      rlF := promote u.rlF frame
      stat := { u.stat with translated := u.stat.translated + 1 }
      response := some (.translated (composePhysical frame o) (readByte frame o u)) } := rfl

/-! ### A page fault that is served -/

/-- The state after a TRANSLATE whose page was filled: the page stands in the target frame and in the least recently used
slot (rules R152, R165). -/
def faultServed (page : PageNo) (o : Offset) (s : State) : State :=
  complete (peekLeast s.rlT) (fillTarget s) o (install (peekLeast s.rlT) page (fillTarget s) (filled page s))

/-- A TRANSLATE that page faults and whose read succeeds is served (rules R150-R152, R165). -/
theorem exec_translate_of_page_fault {p : PageNo} (o : Offset) (w : Bool) (clear : s.fault = none)
    (missed : ∀ j : SlotNo, s.tlb[j].page ≠ some p) (invalid : s.pt[p] = none) (succeeds : ReadSucceeds p s) :
    exec (.translate (p.val * 256 + o.val) w) s = .next (faultServed p o s) :=
  exec_translate_of_resolved o w clear (resolve_of_miss missed (ensureResident_of_read_succeeded invalid succeeds))

/-- INSTALL does no paging (rule R132). -/
theorem install_paging (k : SlotNo) (page : PageNo) (frame : FrameNo) (u : State) :
    SamePaging u (install k page frame u) := ⟨rfl, rfl, rfl, rfl, rfl, rfl, rfl⟩

/-- All the paging of a page fault is done by its fill (rules R152, R165). -/
theorem faultServed_paging (page : PageNo) (o : Offset) (s : State) :
    SamePaging (filled page s) (faultServed page o s) :=
  (install_paging _ page _ (filled page s)).after_complete o

/-- The target frame holds the page's bytes (rule R68). -/
theorem memRead_faultServed_target (page : PageNo) (o : Offset) (s : State) {i : Nat} (hi : i < pageSize) :
    memRead (faultServed page o s) (frameBase (fillTarget s) + i) = s.bs.byteAt (pageBase page + i) :=
  ((faultServed_paging page o s).memRead_eq _).trans (memRead_filled_target s hi)

/-- No byte outside the target frame is written (rules R68, R150). -/
theorem memRead_faultServed_outside (page : PageNo) (o : Offset) (s : State) {pa : Nat}
    (outside : ¬ (frameBase (fillTarget s) ≤ pa ∧ pa < frameBase (fillTarget s) + pageSize)) :
    memRead (faultServed page o s) pa = memRead s pa :=
  ((faultServed_paging page o s).memRead_eq pa).trans (memRead_filled_outside s outside)

/-- A fill that succeeded writes, after the choice of its target, the page-table entry, the target frame and its entry of
`FT.resident` (rule R152). -/
theorem filled_eq (page : PageNo) (s : State) : filled page s =
    { s with
      pt := (afterTarget s).pt.set page (some (fillTarget s))
      mem := (filled page s).mem
      resident := s.resident.set (fillTarget s) (some page)
      fill := (afterTarget s).fill
      stat := { s.stat with pageFaults := s.stat.pageFaults + 1 }
      reads := s.reads + 1 } := by
  rw [filled_mem]
  exact congrArg (fillAndMap page (fillTarget s) (s.bs.pageAt (pageBase page))) (afterTarget_eq s)

/-- The fill count is as the choice of the target left it (rules R42, R151). -/
theorem faultServed_fill (page : PageNo) (o : Offset) (s : State) :
    (faultServed page o s).fill = (afterTarget s).fill := by
  rw [(faultServed_paging page o s).fill, filled_fill]

/-- The whole state after a page fault that was served, but for memory, the fill count, and the page-table entry that the
choice of the target writes (rules R150-R152, R165). -/
theorem faultServed_eq (page : PageNo) (o : Offset) (s : State) : faultServed page o s =
    { s with
      tlb := s.tlb.set (peekLeast s.rlT) ⟨some page, fillTarget s⟩
      rlT := promote s.rlT (peekLeast s.rlT)
      pt := (afterTarget s).pt.set page (some (fillTarget s))
      mem := (faultServed page o s).mem
      resident := s.resident.set (fillTarget s) (some page)
      fill := (faultServed page o s).fill
      rlF := promote s.rlF (fillTarget s)
      stat := ⟨s.stat.translated + 1, s.stat.pageFaults + 1, s.stat.tlbHits⟩
      reads := s.reads + 1
      response := some (.translated (composePhysical (fillTarget s) o)
        (sext8 (s.bs.byteAt (page.val * 256 + o.val)))) } := by
  have byte : readByte (fillTarget s) o (install (peekLeast s.rlT) page (fillTarget s) (filled page s)) =
      sext8 (s.bs.byteAt (page.val * 256 + o.val)) := congrArg sext8 (memRead_filled_target s o.isLt)
  have served : faultServed page o s = _ := complete_eq (peekLeast s.rlT) (fillTarget s) o _
  rw [byte, filled_eq] at served
  rw [faultServed_fill]
  exact served

/-- While a fresh frame is left, choosing a target keeps the page table (rule R151). -/
theorem afterTarget_pt_of_fresh (fresh : s.fill.val < numFrames) : (afterTarget s).pt = s.pt := by
  rw [afterTarget_pt_eq, if_pos fresh]

/-- Once every frame has been handed out, choosing a target keeps the fill count (rule R151). -/
theorem afterTarget_fill_of_full (full : s.fill.val = numFrames) : (afterTarget s).fill = s.fill :=
  Fin.ext ((afterTarget_fill s).trans (if_neg full.not_lt))

/-! ### Answers by FAULT -/

/-- A malformed record with FAULT clear (rule R167). -/
theorem exec_translateMalformed_of_clear (clear : s.fault = none) :
    exec .translateMalformed s = .next (respond .errMalformedRecord s) := by
  rw [exec_translateMalformed, faultPage, clear]
  rfl

/-- A faulted block answers a malformed record with ERR_FAULTED (rule R170). -/
theorem exec_translateMalformed_of_fault {r : FaultRecord} (set : s.fault = some r) :
    exec .translateMalformed s = .next (respond (.errFaulted r.page) s) := by
  rw [exec_translateMalformed, faultPage, set]
  rfl

/-- A step on an illegal word (rules R97, R172). -/
theorem step_of_illegal_word {w v : Word64} {rest : List HostInput} (input : s.inbox = .word w :: rest)
    (decoded : decode w = .illegal v) :
    step s = .next (post (.words [0xB000000000000000]) (respond .errIllegalCommand { s with inbox := rest })) := by
  have packed : Resp.errIllegalCommand.pack = some [0xB000000000000000] := by decide
  rw [step_of_inbox_cons input, perform_word, decoded, performDecoded_illegal, replyWords_next rfl packed]

end Sys2Proof.Machine
end

section
/-! The statements of 45_translation_engine.md. -/

namespace Sys2Proof.Machine

/-- Settles O21: the search finds the slot, its frame serves the page, and steps 3 to 7 write the fields named. -/
theorem translateOnATlbHit : Obligations.TranslateOnATlbHit := by
  intro s p o isWrite k clear holds lowest
  exact exec_translate_of_resolved o isWrite clear (resolve_of_hit (findSlot_eq_some.mpr ⟨holds, lowest⟩))

/-- Settles O22: no slot holds the page, ENSURE_RESIDENT finds its frame, and steps 3 to 7 write the fields named. -/
theorem translateOnAPageTableHit : Obligations.TranslateOnAPageTableHit := by
  intro s p o isWrite f clear missed valid
  exact exec_translate_of_resolved o isWrite clear (resolve_of_miss missed (ensureResident_of_valid valid))

/-- Settles O23: the target is the next fresh frame, and choosing it keeps the page table. -/
theorem translateOnAPageFaultTakesTheNextFreshFrame : Obligations.TranslateOnAPageFaultTakesTheNextFreshFrame := by
  intro s p o isWrite f clear missed invalid next succeeds
  have fresh : s.fill.val < numFrames := next ▸ f.isLt
  obtain rfl : fillTarget s = f := fillTarget_eq_of_fill (.inl ⟨fresh, next.symm⟩)
  refine ⟨faultServed p o s, exec_translate_of_page_fault o isWrite clear missed invalid succeeds, ?fill,
    fun i hi => memRead_faultServed_target p o s hi, fun pa outside => memRead_faultServed_outside p o s outside, ?state⟩
  case fill => rw [faultServed_fill, afterTarget_fill, if_pos fresh]
  case state =>
    have whole := faultServed_eq p o s
    rw [afterTarget_pt_of_fresh fresh] at whole
    exact whole

/-- Settles O24: the target is the least recently used frame, and choosing it keeps the fill count. -/
theorem translateOnAPageFaultEvictsTheLeastRecentFrame : Obligations.TranslateOnAPageFaultEvictsTheLeastRecentFrame := by
  intro s p o isWrite f clear missed invalid full least succeeds
  obtain rfl : fillTarget s = f := fillTarget_eq_of_fill (.inr ⟨full, least.symm⟩)
  refine ⟨faultServed p o s, exec_translate_of_page_fault o isWrite clear missed invalid succeeds,
    fun i hi => memRead_faultServed_target p o s hi, fun pa outside => memRead_faultServed_outside p o s outside, ?state⟩
  have whole := faultServed_eq p o s
  rw [faultServed_fill, afterTarget_fill_of_full full, afterTarget_pt_eq, if_neg (Nat.not_lt.mpr full.ge)] at whole
  exact whole

/-- Settles O30: each command by FAULT; that only a reset clears the register is `faultRegisterIsSticky`. -/
theorem aFaultedBlockTranslatesNothing : Obligations.AFaultedBlockTranslatesNothing := by
  intro s r set
  exact ⟨exec_translate_of_fault set, exec_translateMalformed_of_fault set, ⟨_, exec_report s, rfl⟩,
    fun t h notReset => (faultRegisterIsSticky s t h notReset).1 r set⟩

/-- Settles O27: the range check comes before DECOMPOSE. -/
theorem outOfRangeAddressesAreRejected : Obligations.OutOfRangeAddressesAreRejected :=
  fun _ _ isWrite clear outside => exec_translate_out_of_range clear outside isWrite

/-- Settles O28, by FAULT. -/
theorem malformedRecordsAreRejected : Obligations.MalformedRecordsAreRejected :=
  fun _ => ⟨exec_translateMalformed_of_clear, fun _ => exec_translateMalformed_of_fault⟩

/-- Settles O29: the figures are those of `ratesOf`. -/
theorem reportGivesTheStatistics : Obligations.ReportGivesTheStatistics := exec_report

/-- Settles O33: either command only responds. -/
theorem malformedAndReportFrame : Obligations.MalformedAndReportFrame := by
  rintro i s t h (rfl | rfl)
  · cases (exec_translateMalformed s).symm.trans h
    rfl
  · cases (exec_report s).symm.trans h
    rfl

/-- Settles O43: the reply is the one word of ERR_ILLEGAL_COMMAND. -/
theorem illegalWordsAreAnsweredAndChangeNothing : Obligations.IllegalWordsAreAnsweredAndChangeNothing :=
  fun _ _ _ _ => step_of_illegal_word

end Sys2Proof.Machine
end

section
/-! SUPPORT. A step on a command word as the command's answer and its reply, and which answer a TRANSLATE in range gets
(rules R99, R153, R165, R194). -/

namespace Sys2Proof.Machine

variable {s t : State} {i : Instr}

/-- A step on a word that decodes to a command goes on as the command answers, and posts words (rules R98, R99). -/
theorem step_of_word_eq_next {w : Word64} {rest : List HostInput} (input : s.inbox = .word w :: rest)
    (decoded : decode w = .command i) (h : step s = .next t) :
    ∃ u ws, exec i { s with inbox := rest } = .next u ∧ t = post (.words ws) u := by
  rw [step_of_word input decoded] at h
  obtain ⟨u, answer⟩ | blocked := exec_next_or_blocked i { s with inbox := rest }
  · obtain ⟨r, response⟩ := exec_response answer
    rw [answer] at h
    obtain ⟨ws, -, posted⟩ := replyWords_eq_next response h
    exact ⟨u, ws, answer, posted⟩
  · rw [blocked, replyWords_fault] at h
    cases h

/-- Step 2 of TRANSLATE ends the command only where the fill fails (rules R66, R150, R153). -/
theorem fillFails_of_resolve_raised {page : PageNo} {e : Resp} (h : resolve page s = .raised e t) :
    FillFails page s := by
  obtain ⟨missed, raised⟩ := resolve_raised h
  obtain ⟨invalid, failed, -, -⟩ := ensureResident_raised raised
  exact ⟨findSlot_eq_none.mp missed, invalid, bsAnswer_ioerror.mp failed⟩

/-- A TRANSLATE whose fill fails answers ERR_BACKING_STORE_IO of its page (rule R153). -/
theorem translate_response_of_fillFails {p : PageNo} {o : Offset} {w : Bool}
    (h : exec (.translate (p.val * 256 + o.val) w) s = .next t) (clear : s.fault = none) (fails : FillFails p s) :
    t.response = some (.errBackingStoreIO p) := by
  obtain ⟨missed, invalid, failed⟩ := fails
  rw [exec_translate_address p o w clear, resolve_of_read_failed missed invalid (bsAnswer_ioerror.mpr failed)] at h
  cases h
  rfl

/-- Any other TRANSLATE in range that answers, with FAULT clear, answers TRANSLATED (rule R165 step 7). -/
theorem translate_response_of_not_fillFails {p : PageNo} {o : Offset} {w : Bool}
    (h : exec (.translate (p.val * 256 + o.val) w) s = .next t) (clear : s.fault = none) (serves : ¬ FillFails p s) :
    ∃ pa v, t.response = some (.translated pa v) := by
  rw [exec_translate_address p o w clear] at h
  cases resolved : resolve p s with
  | done served u =>
    rw [resolved] at h
    cases h
    exact ⟨_, _, complete_response _⟩
  | raised e u => exact absurd (fillFails_of_resolve_raised resolved) serves
  | stuck =>
    rw [resolved] at h
    cases h

end Sys2Proof.Machine
end

section
/-! The statements of 60_exceptions.md. -/

namespace Sys2Proof.Machine

/-- Settles O34: a command that answers and does more is a TRANSLATE, which is then TRANSLATED or has a failed fill. -/
theorem errorsArePrecise : Obligations.ErrorsArePrecise := by
  intro i s t h precise
  cases exec_answered h with
  | plain => rfl
  | translated => simp at precise
  | failed => simp at precise

/-- Settles O41, along the five checks. -/
theorem errorPriority : Obligations.ErrorPriority := by
  intro s t w rest input h
  cases decoded : decode w with
  | illegal v =>
    cases (step_of_illegal_word input decoded).symm.trans h
    exact ⟨⟨_, rfl⟩, rfl⟩
  | command i =>
    obtain ⟨u, ws, answer, rfl⟩ := step_of_word_eq_next input decoded h
    refine ⟨⟨ws, congrArg (· ++ [Reply.words ws]) (exec_keeps_queues answer).2⟩, ?_⟩
    cases i with
    | report =>
      cases answer.symm.trans (exec_report _)
      exact ⟨_, _, _, _, _, rfl, rfl⟩
    | translateMalformed =>
      dsimp only
      split
      next r fault =>
        cases answer.symm.trans (exec_translateMalformed_of_fault (s := { s with inbox := rest }) fault)
        rfl
      next fault =>
        cases answer.symm.trans (exec_translateMalformed_of_clear (s := { s with inbox := rest }) fault)
        rfl
    | translate addr isWrite =>
      dsimp only
      split
      next r fault =>
        cases answer.symm.trans (exec_translate_of_fault (s := { s with inbox := rest }) fault addr isWrite)
        rfl
      next fault =>
        split
        next outside =>
          cases answer.symm.trans (exec_translate_out_of_range (s := { s with inbox := rest }) fault outside isWrite)
          rfl
        next =>
          intro p page
          have address : addr = p.val * 256 + (Fin.ofNat 256 addr).val := page ▸ (Nat.div_add_mod' addr 256).symm
          rw [address] at answer
          exact ⟨fun fails => (translate_response_of_fillFails answer fault fails :),
            fun serves => (translate_response_of_not_fillFails answer fault serves :)⟩

end Sys2Proof.Machine
end

section
/-! SUPPORT. The slot and the frame that a translation is served by, what no step but a reset clears, and what a run whose
reads return never does (rules R67, R130, R133, R165, R215, R223, R229). -/

namespace Sys2Proof.Machine

variable {s t u : State} {page : PageNo} {k : SlotNo} {frame : FrameNo} {i : Instr}

/-! ### Promotions -/

/-- The slot that step 2 of TRANSLATE is done with: the lowest that held the page, or the least recently used one where
none did (rules R130, R133). -/
theorem resolve_slot (h : resolve page s = .done (k, frame) u) :
    s.tlb[k].page = some page ∧ (∀ j < k, s.tlb[j].page ≠ some page) ∨
      (∀ j : SlotNo, s.tlb[j].page ≠ some page) ∧ k = peekLeast s.rlT := by
  obtain ⟨found, -, -⟩ | ⟨missed, v, resident, rfl, -⟩ := resolve_done h
  · exact .inl (findSlot_eq_some.mp found)
  · exact .inr ⟨findSlot_eq_none.mp missed, congrArg peekLeast (ensureResident_keeps_rlT resident)⟩

/-- A command that answers TRANSLATED is a TRANSLATE whose step 2 was done and which has then completed (rule R165). -/
theorem exec_translated {pa : PAddr} {v : Int} (h : exec i s = .next t) (response : t.response = some (.translated pa v)) :
    ∃ (p : PageNo) (o : Offset) (w : Bool) (k : SlotNo) (frame : FrameNo) (u : State),
      i = .translate (p.val * 256 + o.val) w ∧ resolve p s = .done (k, frame) u ∧ t = complete k frame o u := by
  obtain ⟨r, rfl, untranslated⟩ | ⟨addr, w, lt, k, frame, u, rfl, -, resolved, rfl⟩ | ⟨_, _, _, _, -, -, -, rfl⟩ :=
    exec_next h
  · exact absurd (Option.some.inj response) (untranslated pa v)
  · exact ⟨_, _, w, k, frame, u, congrArg (Instr.translate · w) (address_split addr lt), resolved, rfl⟩
  · cases response

/-- A command that does not answer TRANSLATED promotes nothing (rules R154, R223). -/
theorem exec_keeps_orders (h : exec i s = .next t) (untranslated : ∀ pa v, t.response ≠ some (.translated pa v)) :
    t.rlT = s.rlT ∧ t.rlF = s.rlF := by
  cases exec_answered h with
  | plain => exact ⟨rfl, rfl⟩
  | translated => exact absurd (complete_response _) (untranslated _ _)
  | failed => simp

/-! ### What only a reset clears -/

/-- `t` keeps a FAULT that `s` has set, and has no lower counter and no newly EMPTY slot. -/
structure ClearsNothing (s t : State) : Prop where
  fault : s.fault ≠ none → t.fault = s.fault
  translated : s.stat.translated ≤ t.stat.translated
  pageFaults : s.stat.pageFaults ≤ t.stat.pageFaults
  tlbHits : s.stat.tlbHits ≤ t.stat.tlbHits
  slots : ∀ k : SlotNo, s.tlb[k].page ≠ none → t.tlb[k].page ≠ none

/-- A change outside FAULT, the counters and the TLB clears nothing. -/
theorem ClearsNothing.of_eq (fault : t.fault = s.fault) (stat : t.stat = s.stat) (tlb : t.tlb = s.tlb) :
    ClearsNothing s t where
  fault _ := fault
  translated := stat ▸ le_rfl
  pageFaults := stat ▸ le_rfl
  tlbHits := stat ▸ le_rfl
  slots k live := by rwa [tlb]

/-- Step 2 of TRANSLATE lowers no counter (rule R44). -/
theorem Served.stat_le (h : Served page s k frame u) :
    s.stat.pageFaults ≤ u.stat.pageFaults ∧ s.stat.tlbHits ≤ u.stat.tlbHits := by
  cases h <;> simp

/-- A command lowers no counter (rule R44). -/
theorem exec_stat_le (h : exec i s = .next t) : s.stat.translated ≤ t.stat.translated ∧
    s.stat.pageFaults ≤ t.stat.pageFaults ∧ s.stat.tlbHits ≤ t.stat.tlbHits := by
  cases exec_answered h with
  | plain => exact ⟨le_rfl, le_rfl, le_rfl⟩
  | translated _ _ served =>
    rw [complete_stat, served.translated_eq]
    exact ⟨Nat.le_succ _, served.stat_le⟩
  | failed => simp

/-- A command clears nothing (rules R44, R45, R134). -/
theorem exec_clears_nothing (h : exec i s = .next t) : ClearsNothing s t := by
  obtain ⟨translated, pageFaults, tlbHits⟩ := exec_stat_le h
  refine ⟨fun set => ?_, translated, pageFaults, tlbHits, fun k live => ?_⟩
  · obtain kept | ⟨clear, -⟩ := exec_fault h
    · exact kept
    · exact absurd clear set
  · obtain kept | ⟨-, p, -, -, -, -, installed⟩ := exec_tlb_get h k
    · rwa [kept]
    · exact fun empty => nomatch installed.symm.trans empty

/-- No step but a reset clears anything (rule R215). -/
theorem step_clears_nothing (h : step s = .next t) (notReset : s.inbox.head? ≠ some .reset) : ClearsNothing s t := by
  cases step_stepped h with
  | idle => exact .of_eq rfl rfl rfl
  | reset input => exact absurd (congrArg List.head? input) notReset
  | attach => exact .of_eq rfl rfl rfl
  | word _ _ answer => exact { exec_clears_nothing answer with }
  | command _ answer => exact { exec_clears_nothing answer with }
  | illegal => exact .of_eq rfl rfl rfl

/-! ### A run whose reads return -/

/-- No read is silent where no draw is; a read past the end of the list is answered (rules R66, R67; log 10). -/
theorem nextDraw_ne_neverAnswers (returns : ReadsReturn s) : nextDraw s ≠ .neverAnswers := by
  rw [nextDraw, List.getD_eq_getElem?_getD]
  cases draw : s.draws[s.reads]? with
  | none => exact nofun
  | some d => exact returns d (List.mem_of_getElem? draw)

/-- Where the reads return every command answers (rule R229). -/
theorem exec_answers_of_readsReturn (i : Instr) (returns : ReadsReturn s) : ∃ t, exec i s = .next t := by
  refine (exec_next_or_blocked i s).resolve_right fun blocked => ?_
  obtain ⟨p, o, w, rfl, clear⟩ := translate_of_exec_blocked blocked
  obtain ⟨-, -, -, silent⟩ := (exec_translate_blocked clear).mp blocked
  exact nextDraw_ne_neverAnswers returns silent

/-- Replying in words never blocks (rule R99). -/
theorem replyWords_next_ne_fault (t : State) (e : Fault) : replyWords (.next t) ≠ .fault e := by
  rw [replyWords]
  split
  · split <;> exact nofun
  · exact nofun

/-- Nor does replying in the abstract form. -/
theorem replyAbstract_next_ne_fault (t : State) (e : Fault) : replyAbstract (.next t) ≠ .fault e := by
  rw [replyAbstract]
  split <;> exact nofun

/-- Where the reads return the block blocks on no input of the host (rule R229). -/
theorem perform_ne_fault (returns : ReadsReturn s) (input : HostInput) (e : Fault) : perform input s ≠ .fault e := by
  cases input with
  | reset => exact nofun
  | attach store =>
    rw [perform_attach, attachStore]
    split <;> exact nofun
  | command i =>
    obtain ⟨t, answer⟩ := exec_answers_of_readsReturn i returns
    rw [perform_command, answer]
    exact replyAbstract_next_ne_fault t e
  | word w =>
    rw [perform_word]
    cases decode w with
    | illegal v =>
      rw [performDecoded_illegal]
      exact replyWords_next_ne_fault _ e
    | command i =>
      obtain ⟨t, answer⟩ := exec_answers_of_readsReturn i returns
      rw [performDecoded_command, answer]
      exact replyWords_next_ne_fault t e

end Sys2Proof.Machine
end

section
/-! The statements of 70_reset_and_hazards.md. -/

namespace Sys2Proof.Machine

/-- Settles O35: what completes a TRANSLATE promotes the slot and the frame that step 2 was done with. -/
theorem onePromotionInEachListPerTranslation : Obligations.OnePromotionInEachListPerTranslation := by
  refine fun i s t h => ⟨fun pa v response => ?_, exec_keeps_orders h⟩
  obtain ⟨p, o, w, k, frame, u, command, resolved, rfl⟩ := exec_translated h response
  have served := resolve_served resolved
  have address : composePhysical frame o = pa := (Resp.translated.inj (Option.some.inj response)).1
  refine ⟨p, o, w, k, frame, command, resolve_slot resolved, ?_, congrArg Fin.val address.symm, ?_, ?_⟩
  · rw [served.complete_tlb_get, if_pos rfl]
  · rw [complete_rlT, served.rlT_eq]
  · rw [complete_rlF, served.rlF_eq]

/-- Settles O44: a reset puts the reset values in place, and no other step clears anything. -/
theorem resetPutsEveryPieceOfStateIntoItsResetValue : Obligations.ResetPutsEveryPieceOfStateIntoItsResetValue := by
  refine ⟨fun s rest input => ?_, fun s t h notReset => ?_⟩
  · obtain ⟨slots, slotOrder, pages, frames, fill, frameOrder, stat, clear, -⟩ :=
      applyReset_atReset { s with inbox := rest }
    exact ⟨_, step_of_inbox_cons input, slots, slotOrder, pages, frames, fill, frameOrder, stat, clear⟩
  · obtain ⟨fault, translated, pageFaults, tlbHits, slots⟩ := step_clears_nothing h notReset
    exact ⟨fault, translated, pageFaults, tlbHits, slots⟩

/-- Settles O50: where the reads return, neither an idle step nor one on an input of the host blocks. -/
theorem theBlockNeverHangsIfReadsReturn : Obligations.TheBlockNeverHangsIfReadsReturn := by
  intro s e returns
  cases input : s.inbox with
  | nil => simp [step, input]
  | cons next rest =>
    rw [step_of_inbox_cons input]
    exact perform_ne_fault (s := { s with inbox := rest }) returns next e

end Sys2Proof.Machine
end
